-- ==== Sys2Proof/Word.lean ====
section
/-! DEFINITION. The words of the part: bytes, byte strings, and the names of the three masters.
The Lerjun 330 exchanges byte strings (00_scope.md, Byte order); multi-byte numbers are built from bytes in Machine/Bytes.lean. -/

namespace Sys2Proof

/-- One byte. -/
abbrev Byte := BitVec 8

/-- A byte string: payloads, digests, keys, signatures, nonces (00_scope.md, Byte order). -/
abbrev Bytes := List Byte

/-- The three processors the part serves, APP 0, RADIO 1, LINE 2 (00_scope.md, The masters). -/
inductive Master
  | app
  | radio
  | line
deriving DecidableEq, Repr

/-- The index of a master. -/
def Master.idx : Master → Nat
  | .app => 0
  | .radio => 1
  | .line => 2

/-- The master of an index; a master index outside 0..2 names none (R192). -/
def Master.ofIdx : Nat → Option Master
  | 0 => some .app
  | 1 => some .radio
  | 2 => some .line
  | _ => none

/-- The three masters in order of index. -/
def Master.all : List Master := [.app, .radio, .line]

/-- One value for each master. -/
structure Tri (α : Type) where
  app : α
  radio : α
  line : α
deriving DecidableEq, Repr

/-- The value of one master. -/
def Tri.get {α : Type} (t : Tri α) : Master → α
  | .app => t.app
  | .radio => t.radio
  | .line => t.line

/-- `t` with the value of one master replaced. -/
def Tri.set {α : Type} (t : Tri α) (m : Master) (a : α) : Tri α :=
  match m with
  | .app => { t with app := a }
  | .radio => { t with radio := a }
  | .line => { t with line := a }

/-- The same value for each master. -/
def Tri.const {α : Type} (a : α) : Tri α := ⟨a, a, a⟩

/-- One of the two slots of a master (R67). -/
inductive SlotNo
  | s0
  | s1
deriving DecidableEq, Repr

/-- The slot number. -/
def SlotNo.idx : SlotNo → Nat
  | .s0 => 0
  | .s1 => 1

/-- The slot of a number; a slot number outside 0..1 names none (R192). -/
def SlotNo.ofIdx : Nat → Option SlotNo
  | 0 => some .s0
  | 1 => some .s1
  | _ => none

/-- The slot beside this one. -/
def SlotNo.other : SlotNo → SlotNo
  | .s0 => .s1
  | .s1 => .s0

end Sys2Proof
end

