-- ==== Sys2Proof/Syntax.lean ====
section
/-! DEFINITION. The commands of the part: one constructor for each row of spec/opcode_table.json.
A request row stands for a REQUEST-WRITE whose frame has that request code, a right length and a right CRC-16, judged when chip
select rises (R181); its operands are the port's master, the tag byte and the payload bytes (R192). Log entries 1 and 25. -/

namespace Sys2Proof

/-- Who submitted an internal read: a Master Supervisor, the Image Manager or the Record Store (R5). -/
inductive Requester
  | supervisor (m : Master)
  | image
  | store
deriving DecidableEq, Repr

/-- The commands. -/
inductive Instr
  /-- Power is applied (R108). -/
  | powerOn
  /-- The nRESET pin is asserted (R108). -/
  | nreset
  /-- A BOOT-READ code byte is received (R99, R100). -/
  | bootRead (m : Master)
  /-- The address phase of a BOOT-READ completes (R16). -/
  | bootReadArrival (m : Master) (addr : BitVec 24)
  /-- Chip select rises on a BOOT-READ that clocked `clocked` data bytes, `waited` of them before a read that had to wait
  was granted (R16). -/
  | bootReadEnd (m : Master) (waited clocked : Nat)
  /-- An ANSWER-READ that clocked `clocked` bytes after the dummy byte (R184). -/
  | answerRead (m : Master) (clocked : Nat)
  | statusRead (m : Master)
  | eventClear (m : Master) (bits : Byte)
  | eventMask (m : Master) (bits : Byte)
  | unknownTransactionCode (m : Master) (code : Byte)
  | unknownRequest (m : Master) (tag : Byte) (code : Byte) (payload : Bytes)
  | identify (m : Master) (tag : Byte) (payload : Bytes)
  | masterState (m : Master) (tag : Byte) (payload : Bytes)
  | announce (m : Master) (tag : Byte) (payload : Bytes)
  | restart (m : Master) (tag : Byte) (payload : Bytes)
  | partReset (m : Master) (tag : Byte) (payload : Bytes)
  | settingsRead (m : Master) (tag : Byte) (payload : Bytes)
  | settingsWrite (m : Master) (tag : Byte) (payload : Bytes)
  | stageBegin (m : Master) (tag : Byte) (payload : Bytes)
  | stageData (m : Master) (tag : Byte) (payload : Bytes)
  | stageEnd (m : Master) (tag : Byte) (payload : Bytes)
  | stageAbort (m : Master) (tag : Byte) (payload : Bytes)
  | slotQuery (m : Master) (tag : Byte) (payload : Bytes)
  | activateNext (m : Master) (tag : Byte) (payload : Bytes)
  | activateNow (m : Master) (tag : Byte) (payload : Bytes)
  | activateInstall (m : Master) (tag : Byte) (payload : Bytes)
  | trialCheck (m : Master) (tag : Byte) (payload : Bytes)
  | slotErase (m : Master) (tag : Byte) (payload : Bytes)
  | keyCreate (m : Master) (tag : Byte) (payload : Bytes)
  | keyDestroy (m : Master) (tag : Byte) (payload : Bytes)
  | keyInfo (m : Master) (tag : Byte) (payload : Bytes)
  | keyFind (m : Master) (tag : Byte) (payload : Bytes)
  | keyPublic (m : Master) (tag : Byte) (payload : Bytes)
  | keySign (m : Master) (tag : Byte) (payload : Bytes)
  | keyAgree (m : Master) (tag : Byte) (payload : Bytes)
  | keyMac (m : Master) (tag : Byte) (payload : Bytes)
  | derivePush (m : Master) (tag : Byte) (payload : Bytes)
  | derivePop (m : Master) (tag : Byte) (payload : Bytes)
  | deriveStore (m : Master) (tag : Byte) (payload : Bytes)
  | extend (m : Master) (tag : Byte) (payload : Bytes)
  | lockCell (m : Master) (tag : Byte) (payload : Bytes)
  | readCells (m : Master) (tag : Byte) (payload : Bytes)
  | readLog (m : Master) (tag : Byte) (payload : Bytes)
  | attest (m : Master) (tag : Byte) (payload : Bytes)
  | claim (m : Master) (tag : Byte) (payload : Bytes)
  | credVerify (m : Master) (tag : Byte) (payload : Bytes)
  | credPut (m : Master) (tag : Byte) (payload : Bytes)
  | credGet (m : Master) (tag : Byte) (payload : Bytes)
  | credDelete (m : Master) (tag : Byte) (payload : Bytes)
  | credList (m : Master) (tag : Byte) (payload : Bytes)
  | grantClose (m : Master) (tag : Byte) (payload : Bytes)
  | relinquish (m : Master) (tag : Byte) (payload : Bytes)
  | fuseIdentity (m : Master) (tag : Byte) (payload : Bytes)
  | fuseSigner (m : Master) (tag : Byte) (payload : Bytes)
  | closeManufacture (m : Master) (tag : Byte) (payload : Bytes)
  | gatherWindowClose
  | holdDeadline (m : Master)
  | contactExpiry (m : Master)
  | trialDeadline (m : Master)
  /-- `stuck`: for each byte of the run, the bits that were to be cleared and are left 1 (R3, R4). -/
  | programTimeLimit (stuck : Bytes)
  /-- `kept`: offsets in the sector and the bits there that keep the value they had before the erase (R9). -/
  | eraseTimeLimit (kept : List (Nat × Byte))
  | lockoutExpiry (entry : Nat)
  | grantExpiry (m : Master)
  | ownerButtonPress
  | ownerButtonRelease
  | ownerButtonHoldExpiry
  | statBlinkToggle
  | internalReadEnd (r : Requester)
  /-- `stuck`: for each byte of the run, the bits that were to be cleared and are left 1; all zero for a good program (R3, R4). -/
  | programEnd (stuck : Bytes)
  /-- `kept`: offsets in the sector and the bits there that keep the value they had before the erase; empty for a good
  erase (R9). -/
  | sectorEraseEnd (kept : List (Nat × Byte))
  /-- `blown`: whether the read-back shows the fuse blown (R44). -/
  | fuseAttemptEnd (blown : Bool)
  | cryptoJobEnd
  | flashArbitration
  | bootChoice (m : Master)
  | commitStart
  /-- `frame`: the bytes clocked after the transaction code of a REQUEST-WRITE (R181); none of a lost one, whose code byte came while
  the master was HELD or which a master reset ended before chip select rose (R180, log entry 25). -/
  | requestFrameDiscarded (m : Master) (frame : Option Bytes)
  | fuseBankReadEnd
deriving DecidableEq, Repr

end Sys2Proof
end

