-- ==== Sys2Proof/Decode.lean ====
section
/-! DEFINITION. The commands that words spell: none. spec/opcode_table.json gives no row any bits, for the part fetches no
instruction; its commands are transactions, events and ends of operations (log entry 1). -/

namespace Sys2Proof

/-- The command an `nbits`-bit word spells by the table's bits. No row of the table has bits. -/
def decodeTableWord (_nbits _w : Nat) : Option Instr := none

end Sys2Proof
end

