-- ==== Sys2Proof/Machine/Bytes.lean ====
section
/-! DEFINITION. Byte strings: little-endian numbers (00_scope.md, Byte order), big-endian numbers of the crypto operations
(04_the_crypto_engine.md 4.3), and the CRC-16 of frames (R181). -/

namespace Sys2Proof.Machine

/-- `n` as `k` bytes, least significant first. -/
def le (k n : Nat) : Bytes :=
  match k with
  | 0 => []
  | k + 1 => BitVec.ofNat 8 n :: le k (n / 256)

/-- The number whose bytes, least significant first, are given. -/
def leNat : Bytes → Nat
  | [] => 0
  | b :: bs => b.toNat + 256 * leNat bs

/-- `n` as `k` bytes, most significant first. -/
def be (k n : Nat) : Bytes := (le k n).reverse

/-- The number whose bytes, most significant first, are given. -/
def beNat (b : Bytes) : Nat := leNat b.reverse

/-- The bytes from position `i`, `n` of them. -/
def slice (i n : Nat) (b : Bytes) : Bytes := (b.drop i).take n

/-- The byte at position `i`; 0 past the end. -/
def byteAt (i : Nat) (b : Bytes) : Byte := b.getD i 0

/-- Whether bit `i` of a byte-coded set is set (R192). -/
def hasBit (b : Byte) (i : Nat) : Bool := b.getLsbD i

/-- A fixed-width field: the bytes, cut or padded at the end with `fill`. -/
def padTo (n : Nat) (fill : Byte) (b : Bytes) : Bytes := (b ++ List.replicate n fill).take n

/-- The bytes of an ASCII name. -/
def ascii (s : String) : Bytes := s.toList.map fun c => BitVec.ofNat 8 c.toNat

/-- One step of the CRC-16 over one bit position (polynomial 0x1021, R181). -/
def crcShift (c : BitVec 16) : BitVec 16 :=
  if c.msb then (c <<< 1) ^^^ 0x1021#16 else c <<< 1

/-- The CRC-16 after one more byte, most significant bit first (R181). -/
def crcByte (c : BitVec 16) (b : Byte) : BitVec 16 :=
  let c0 := c ^^^ ((b.zeroExtend 16) <<< 8)
  crcShift (crcShift (crcShift (crcShift (crcShift (crcShift (crcShift (crcShift c0)))))))

/-- CRC-16 with initial value 0xFFFF, no reflection, no final inversion (R181). -/
def crc16 (b : Bytes) : BitVec 16 := b.foldl crcByte 0xFFFF#16

/-- The stored CRC, low byte first (R181). -/
def crcBytes (b : Bytes) : Bytes := le 2 (crc16 b).toNat

end Sys2Proof.Machine
end

