-- ==== Sys2Proof/Config.lean ====
section
/-! DEFINITION. What one part fixes and the manual does not give, as constants with no body, so that nothing can be proved
of their values: the internal random source, the bits an abandoned operation leaves, the Rescue ROM's contents. -/

namespace Sys2Proof

/-- The n-th byte drawn from the part's internal random source (R51, R60, R61, R104, R135, R169). Free value, log entry 8. -/
opaque Config.randomByte : Nat → Byte

/-- The n-th indeterminate byte left by an operation a part reset abandoned (R4, R9, R17). Free value, log entry 9. -/
opaque Config.freeByte : Nat → Byte

/-- The n-th indeterminate bit: whether a fuse under attempt at a part reset reads blown (R48). Free value, log entry 10. -/
opaque Config.freeBit : Nat → Bool

/-- The n-th open count: bytes a master has clocked when its window opens (R100), or when a master reset ends its BOOT-READ, and
bytes its boot read waited until then (R16, R180). Free value, log entry 11. -/
opaque Config.freeCount : Nat → Nat

/-- Byte a of the Rescue ROM, a fixed loader of 65,536 bytes whose contents the manual does not give (R99). Log entry 21. -/
opaque Config.rescueRom : Nat → Byte

/-- The scalar a DERIVE-SCALAR job returns should all 256 values of its one-byte counter give a number outside 1..n-1,
where the manual states no result (R62). Free value, log entry 20. -/
opaque Config.scalarAfterCounter : Bytes → Nat

end Sys2Proof
end

