-- ==== Sys2Proof/Machine/State.lean ====
section
/-! DEFINITION. The state of the part, as plain data, and its value right after power-on of a new part.
Each block of 00_scope.md's Block overview has its own structure; INVENTORY.md lists every field with its rule. -/

namespace Sys2Proof.Machine

/-! ### Port Interface (11_ports_frames_and_alerts.md) -/

/-- Answer status codes (11.8). -/
inductive Status
  | ok | confirmed | trialError | mismatch | badRequest | notPermitted | notFound | existsAlready | full | state | conflict
  | outOfOrder | lockedOut | storeFull | flashFault | fuseFault | unknownRequest
deriving DecidableEq, Repr

/-- Slot reasons and answer details (11.8; R68). -/
inductive Reason
  | aborted | interrupted | signature | signerAbsent | signerRevoked | signerPendingRevoke | revokeInUse | wrongTarget | level
  | length | digest | flash | damaged | trialErrors | trialBoots | bootFailures | belowFloor | revokedLater | format
deriving DecidableEq, Repr

/-- The condition of a port's single request (11.1). -/
inductive ReqState
  | empty | working | answered
deriving DecidableEq, Repr

/-- The answer the port holds: status, echoed tag, payload; its frame is computed from them (R183). -/
structure Answer where
  status : Status
  tag : Byte
  payload : Bytes
deriving DecidableEq, Repr

/-- One accepted request: its port and the port's count of accepted frames, so that an answer made for a request that
has been dropped does not reach a later one (R183). -/
structure Req where
  port : Master
  no : Nat
deriving DecidableEq, Repr

/-- A BOOT-READ transaction in progress on a port (R16, R99, R100). -/
structure BootTrans where
  /-- The window address of its address phase, once complete. -/
  addr : Option Nat
  /-- Bytes clocked, all 0xFF, while the window was PENDING (R100). -/
  lead : Nat
  /-- Whether the transaction has been served from an OPEN window. -/
  opened : Bool
  /-- Whether its boot read had to wait at the Flash Controller (R16). -/
  delayed : Bool
deriving DecidableEq, Repr

/-! ### Flash array and Flash Controller (01_the_flash_array_and_its_controller.md) -/

/-- The two areas of the array (R1). -/
inductive Area
  | image | store
deriving DecidableEq, Repr

/-- An erasable sector: large sector or store sector (R1). -/
structure Sector where
  area : Area
  index : Nat
deriving DecidableEq, Repr

/-- A run of locations, by flat address (R2, R3). -/
structure Run where
  start : Nat
  len : Nat
deriving DecidableEq, Repr

/-- A read: the boot read of a master, or an internal read of a requester (R2). -/
inductive ReadBy
  | boot (m : Master)
  | internal (r : Requester)
deriving DecidableEq, Repr

structure ReadOp where
  by_ : ReadBy
  run : Run
deriving DecidableEq, Repr

/-- A page program (R3): its requester, address and bytes. -/
structure ProgOp where
  requester : Requester
  addr : Nat
  data : Bytes
deriving DecidableEq, Repr

/-- Work on the wait list (R12, R13). -/
inductive Waiting
  | read (r : ReadOp)
  | program (p : ProgOp)
deriving DecidableEq, Repr

/-- The active program: active time in microseconds, and whether a boot read has suspended it (R13). -/
structure ActiveProg where
  op : ProgOp
  active : Nat
  suspended : Bool
deriving DecidableEq, Repr

inductive BatchState
  | gathering | running | suspended
deriving DecidableEq, Repr

/-- The erase batch (R7 to R10); NONE is the absence of one. -/
structure Batch where
  state : BatchState
  /-- When the gather window closes, in microseconds (R7). -/
  closes : Nat
  /-- Members not yet decided, the current sector first. -/
  members : List Sector
  /-- Decided members in member order, true for ERASED (R9). -/
  decided : List (Sector × Bool)
  suspends : Nat
  /-- Active time of the current sector in microseconds (R9). -/
  active : Nat
deriving DecidableEq, Repr

/-- Which erase request a sector's result goes to (R7, R14). -/
inductive EraseFor
  /-- A request of the Image Manager, by its task (R74, R84). -/
  | image (task : Nat)
  /-- The victim of a reclaim (R29, R30). -/
  | reclaim
  /-- A sector whose header program faulted (R25). -/
  | rotation
  /-- An unclean sector found by mount (R35). -/
  | unclean
  /-- Formatting (R33, R52). -/
  | formatting
deriving DecidableEq, Repr

/-- A sector with an erase outstanding: the requests attached to it and its failures (R6, R7, R15). -/
structure Outstanding where
  sector : Sector
  attached : List EraseFor
  failures : Nat
deriving DecidableEq, Repr

/-- The Flash Controller's RAM (R17 gives its initial state). -/
structure FlashCtl where
  reads : List ReadOp
  prog : Option ActiveProg
  wait : List Waiting
  batch : Option Batch
  next : List Sector
  outstanding : List Outstanding
  retired : List Sector
deriving DecidableEq, Repr

/-- The result of a program (R3, R6). -/
inductive ProgResult
  | ok | fault | retired
deriving DecidableEq, Repr

/-! ### Fuse Bank (03_the_fuse_bank_and_manufacture.md) -/

/-- A signer row's fuses (R40). -/
structure SignerRow where
  digest : BitVec 256
  written : Bool
  defective : Bool
deriving DecidableEq, Repr

/-- Every fuse of the part; true or a bit 1 is blown (R39 to R42). -/
structure Fuses where
  serial : BitVec 64
  seed : BitVec 256
  written : Bool
  signer0 : SignerRow
  signer1 : SignerRow
  signer2 : SignerRow
  signer3 : SignerRow
  revoke : BitVec 4
  counters : Tri (BitVec 64)
  closed : Bool
deriving DecidableEq, Repr

/-- One fuse, by name. -/
inductive FuseId
  | serial (i : Nat)
  | seed (i : Nat)
  | identityWritten
  | digest (row i : Nat)
  | signerWritten (row : Nat)
  | signerDefective (row : Nat)
  | revoke (s : Nat)
  | counter (m : Master) (k : Nat)
  | closed
deriving DecidableEq, Repr

inductive IdentityState
  | blank | programmed | spoiled
deriving DecidableEq, Repr

inductive RowState
  | blank | good | defective
deriving DecidableEq, Repr

/-- A signer row as the fuse view shows it; the digest is present when GOOD (R40). -/
structure SignerView where
  state : RowState
  digest : Option Bytes
deriving DecidableEq, Repr

/-- The fuse view (R38). -/
structure FuseView where
  identity : IdentityState
  serial : BitVec 64
  signers : List SignerView
  revoked : BitVec 4
  floors : Tri Nat
  closed : Bool
deriving DecidableEq, Repr

/-- The five kinds of fuse job (R43). -/
inductive FuseJob
  | identity (serial : BitVec 64) (seed : BitVec 256)
  | signer (row : Nat) (digest : BitVec 256)
  | close
  | revoke (set : BitVec 4)
  | counter (m : Master) (level : Nat)
deriving DecidableEq, Repr

/-- Where a fuse job came from (R43). -/
inductive FuseSource
  | request (r : Req)
  | commit
  | completion
  | replay
deriving DecidableEq, Repr

/-- The fuse job in progress: fuses still to take with the one under attempt first, attempts made on it, whether a fuse
has failed, and whether a SIGNER job is at its defective fuse (R44 to R46). -/
structure ActiveFuse where
  job : FuseJob
  source : FuseSource
  todo : List FuseId
  attempts : Nat
  failed : Bool
  marking : Bool
deriving DecidableEq, Repr

/-- Pending fuse work: the revoke set still unrevoked and the counter target (R47). -/
structure PendingWork where
  revoke : BitVec 4
  target : Option (Master × Nat)
deriving DecidableEq, Repr

/-- The Fuse Bank's RAM. -/
structure FuseBank where
  view : FuseView
  /-- The read of every fuse at part reset has not ended (R38, R93). -/
  reading : Bool
  jobs : List (FuseJob × FuseSource)
  active : Option ActiveFuse
  pendingWork : Option PendingWork
  /-- The closed fuse has been shown blown, at this part reset or before it (R42, log entry 10). -/
  seen : Bool
deriving DecidableEq, Repr

/-! ### Crypto Engine (04_the_crypto_engine.md) -/

/-- The six sources (4.1). -/
inductive Source
  | port (m : Master)
  | image
  | supervision
  | store
deriving DecidableEq, Repr

/-- A digest context: the intermediate hash value, and the count of bytes consumed (R59). -/
structure DigestCtx where
  hash : List (BitVec 32)
  count : Nat
deriving DecidableEq, Repr

inductive Usage
  | sign | agree | mac | derive | deriveStore | exportPublic
deriving DecidableEq, Repr

/-- What a job names as its key (4.1). `attest` is ATTEST's own take of handle 1, which examines presence alone (R161). -/
inductive KeyRef
  | none
  | table (handle : Nat) (gen : Byte) (m : Master) (usage : Usage)
  | top (m : Master) (usage : Usage)
  | attest
  | record
  | seed
deriving DecidableEq, Repr

/-- A message, or its digest given directly (R60). -/
inductive Message
  | digest (d : Bytes)
  | text (b : Bytes)
deriving DecidableEq, Repr

/-- The engine's operations with their inputs (4.3). -/
inductive CryptoOp
  | digest (ctx : Option DigestCtx) (data : Bytes) (final : Bool)
  | verify (pub : Bytes) (msg : Message) (sig : Bytes)
  | sign (msg : Message)
  | keygen
  | agree (peer : Bytes)
  | mac (data : Bytes) (short : Bool)
  | derive (label : Bytes)
  | deriveScalar (label : Bytes)
deriving DecidableEq, Repr

/-- What the submitting block does with the result. -/
inductive JobFor
  | request (r : Req)
  | stagingCheck (check : Nat)
  | releaseCheck (m : Master) (check : Nat)
  | cell0 (m : Master) (check : Nat)
  | writeTag
  | reclaimTag
  | mountTag
  | recordKey
  | deviceAttest
  | deviceIdentity
deriving DecidableEq, Repr

/-- A job: source, operation, key reference, and, once started, its copy of the key and the key in use (4.1, R58). -/
structure Job where
  source : Source
  op : CryptoOp
  key : KeyRef
  for_ : JobFor
  started : Bool
  orphaned : Bool
  copy : Bytes
  inUse : Option (Nat × Byte)
deriving DecidableEq, Repr

/-- Results of jobs (4.3, R57). -/
inductive JobResult
  | digest (d : Bytes)
  | context (c : DigestCtx)
  | verdict (valid : Bool)
  | signature (b : Bytes)
  | keyPair (scalar pub : Bytes)
  | secret (b : Bytes)
  | mac (b : Bytes)
  | badPeer
  | notFound
  | notPermitted
deriving DecidableEq, Repr

/-- The engine's queue, head first, and the work each block holds back for a source that has a job in it (R55, R56). -/
structure Engine where
  queue : List Job
  waiting : List Job
deriving DecidableEq, Repr

/-! ### Image Manager (05_image_slots_and_staging.md, 07_trial_commit_and_signer_revocation.md) -/

/-- A slot by master and number; its SLOT id is twice the master index plus the number (R67). -/
structure SlotId where
  master : Master
  slot : SlotNo
deriving DecidableEq, Repr

inductive SlotState
  | blank | erasing | loading | loaded | checking | ready | trial | current | fallback | failed
deriving DecidableEq, Repr

/-- A slot entry (R68). The owner port is present while a staging session of the slot exists. -/
structure SlotEntry where
  state : SlotState
  reason : Option Reason
  manifest : Option Bytes
  tryMark : Bool
  trialBoots : Nat
  received : Nat
  owner : Option Master
  checked : Bool
  erasePending : Bool
deriving DecidableEq, Repr

/-- The six entries of the Slot Table (R67). -/
structure SlotPair where
  slot0 : SlotEntry
  slot1 : SlotEntry
deriving DecidableEq, Repr

/-- An erase request of the Image Manager whose results it keeps until every sector has reported (R74, R85). -/
structure EraseTask where
  task : Nat
  sid : SlotId
  req : Req
  /-- true for a staging erase (R74), false for SLOT-ERASE (R85). -/
  staging : Bool
  /-- The slot is still ERASING in the session that asked (R74). -/
  live : Bool
  remaining : List Sector
  anyRetired : Bool
deriving DecidableEq, Repr

/-- A staging check in progress (R63, R77). -/
structure Check where
  check : Nat
  sid : SlotId
  req : Req
  chunk : Nat
  ctx : Option DigestCtx
deriving DecidableEq, Repr

/-- One page of a STAGE-DATA waiting to be programmed, or in progress (R75). -/
structure StagePage where
  req : Req
  sid : SlotId
  addr : Nat
  data : Bytes
  last : Bool
  /-- Bytes the whole request adds when its last page is programmed. -/
  total : Nat
deriving DecidableEq, Repr

inductive CommitCause
  | confirmation | install
deriving DecidableEq, Repr

/-- A commit's cause as it waits (R115). -/
structure CommitReq where
  master : Master
  slot : SlotNo
  bodyDigest : Bytes
  cause : CommitCause
  req : Req
deriving DecidableEq, Repr

/-- The payload of JOURNAL-COMMIT (R117). -/
structure JournalCommit where
  master : Master
  slot : SlotNo
  level : Nat
  revoke : BitVec 4
  bodyDigest : Bytes
deriving DecidableEq, Repr

/-- How far a commit has come: the completion of an earlier one (R116), then steps 1 to 7 (7.3). -/
inductive CommitStep
  | completionWrites
  | completionRevoke
  | completionCounter
  | journal
  | slotFallback
  | revoke
  | counter
  | writes
  | close
deriving DecidableEq, Repr

/-- The commit record (R115). -/
structure Commit where
  cause : CommitReq
  level : Nat
  revoke : BitVec 4
  step : CommitStep
  /-- A master reset stopped it before its journal was submitted (R125). -/
  stopped : Bool
  /-- A job of the completion ended FAULT. -/
  faulted : Bool
  /-- A SLOT write of the completion failed: true when its result, the first such, was NO_SPACE (R116). -/
  failedWrite : Option Bool
deriving DecidableEq, Repr

/-- The commit replay at mount (R126). -/
inductive ReplayStep
  | slotFallback
  | revoke
  | counter
  | writes
  | close
deriving DecidableEq, Repr

structure Replay where
  journal : JournalCommit
  step : ReplayStep
  faulted : Bool
deriving DecidableEq, Repr

/-- The Image Manager. -/
structure ImageMgr where
  slots : Tri SlotPair
  tasks : List EraseTask
  checks : List Check
  /-- Verification reads for staging checks, by check; the first is outstanding (R5). -/
  reads : List Nat
  /-- Page programs of staged bodies; the first is outstanding (R5, R75). -/
  pages : List StagePage
  commit : Option Commit
  waitingCommits : List CommitReq
  journal : Option JournalCommit
  replay : Option Replay
  /-- The slot of each SLOT write of the open journal's commit, or of its replay, that has not ended DURABLE (R116, R123,
  R126). -/
  owed : List SlotId
  /-- The slot a replay has made CURRENT whose write waits for the other slot's to end DURABLE (R118, R126). -/
  second : Option SlotId
deriving DecidableEq, Repr

/-! ### Key Manager (08_keys_and_derivation_stacks.md) -/

inductive KeyClass
  | device | factory | owner | volatile
deriving DecidableEq, Repr

inductive KeyKind
  | sign | agree | secret
deriving DecidableEq, Repr

/-- A binding (R132). -/
inductive Binding
  | none
  | signer (s : Nat)
  | cell (k : Nat) (v : Bytes)
  | grant
deriving DecidableEq, Repr

/-- A Key Table entry (R128). Usages and users are byte-coded sets (11.8). -/
structure KeyEntry where
  handle : Nat
  gen : Byte
  cls : KeyClass
  kind : KeyKind
  usages : Byte
  users : Byte
  binding : Binding
  label : Bytes
  limit : Option Nat
  destroying : Bool
  material : Bytes
  pub : Bytes
deriving DecidableEq, Repr

/-- A handle and label held for a request that will create a key (8.1). -/
structure KeyHold where
  req : Req
  handle : Nat
  label : Bytes
  volatile : Bool
deriving DecidableEq, Repr

/-- A stack entry (R145); its depth is its place, counted from 1 at the root end. -/
structure StackEntry where
  secret : Bytes
  rootHandle : Nat
  rootGen : Byte
  labelDigest : Bytes
deriving DecidableEq, Repr

/-- A KEY-DESTROY taken and not answered: whether the entry has been freed, and the removal write's state (R138). -/
structure Destroy where
  req : Req
  handle : Nat
  gen : Byte
  freed : Bool
  /-- The removal write has not ended. -/
  writing : Bool
  /-- The status the removal write calls for. -/
  status : Status
deriving DecidableEq, Repr

structure KeyMgr where
  table : List KeyEntry
  /-- Generations of handles 1..48, in order (R129). -/
  gens : List Byte
  holds : List KeyHold
  destroys : List Destroy
  /-- The three derivation stacks, each from the root end to the top (R145). -/
  stackOf : Tri (List StackEntry)
deriving DecidableEq, Repr

/-! ### Measurement Unit (09_measurement_cells_and_attestation.md) -/

/-- A log entry (R150); its entry number is its place. -/
structure LogEntry where
  cell : Nat
  digest : Bytes
deriving DecidableEq, Repr

/-- One master's measurement set (R150). -/
structure MeasSet where
  cells : List Bytes
  locks : List Bool
  log : List LogEntry
  releases : BitVec 32
deriving DecidableEq, Repr

structure MeasUnit where
  sets : Tri MeasSet
  sequence : Nat
deriving DecidableEq, Repr

/-! ### Credential Manager and settings (10_the_owner_credential_table.md, 06 R111) -/

inductive CredClass
  | factory | owner
deriving DecidableEq, Repr

/-- A credential's value: a verifier's salt and digest, or a secret (R162). -/
inductive CredValue
  | verifier (salt digest : Bytes)
  | secret (v : Bytes)
deriving DecidableEq, Repr

/-- A Credential Table entry (R162). -/
structure CredEntry where
  index : Nat
  name : Bytes
  cls : CredClass
  readers : Byte
  grantRequired : Bool
  value : CredValue
  serial : Nat
  failures : Nat
  lockout : Option Nat
deriving DecidableEq, Repr

/-- An entry index and name held for a request (R169, R170). -/
structure CredHold where
  req : Req
  index : Nat
  name : Bytes
deriving DecidableEq, Repr

inductive Lifecycle
  | manufacture | unowned | owned
deriving DecidableEq, Repr

inductive ButtonState
  | waiting | released | holding | spent
deriving DecidableEq, Repr

inductive WipeCause
  | request | button
deriving DecidableEq, Repr

/-- The course of a wipe (R176, R178): none, its journal being written, its two phases, its journal being closed. -/
inductive WipePhase
  | none
  | starting
  | removal
  | erasure
  | closing
deriving DecidableEq, Repr

/-- A whole set of settings (R111): times in milliseconds or seconds as the table gives. -/
structure Settings where
  contact : Tri Nat
  trialMin : Nat
  trialMax : Nat
  errorLimit : Nat
  trialBoots : Nat
  bootFailureLimit : Nat
  /-- For each requester, the set of target masters (11.8). -/
  authority : Tri Byte
  grantTime : Nat
  lockoutThreshold : Nat
  lockoutBase : Nat
deriving DecidableEq, Repr

structure CredMgr where
  table : List CredEntry
  holds : List CredHold
  /-- The CRED-PUTs under way that replace an entry a CRED-DELETE has removed meanwhile (R171). -/
  deleted : List Req
  /-- Deadlines of open grants, in milliseconds (R168). -/
  grants : Tri (Option Nat)
  lifecycle : Lifecycle
  /-- The current LIFECYCLE record's value; none when absent (R42). -/
  recorded : Option Lifecycle
  wipe : WipePhase
  wipeCause : WipeCause
  /-- Wipe in progress, shown beside the lifecycle (R164). -/
  wiping : Bool
  button : ButtonState
  buttonDeadline : Option Nat
  /-- The filtered owner-button input reads pressed (R175). -/
  pressed : Bool
  factorySettings : Option Settings
  ownerSettings : Option Settings
deriving DecidableEq, Repr

/-! ### Master Supervisors (06_master_supervision_and_boot_service.md) -/

inductive Phase
  | held | booting | running
deriving DecidableEq, Repr

inductive HoldCause
  | restarting | recovery
deriving DecidableEq, Repr

inductive Window
  | pending | open
deriving DecidableEq, Repr

inductive Served
  | slot (n : SlotNo) | rescue | none
deriving DecidableEq, Repr

inductive ServedState
  | trial | current | rescue
deriving DecidableEq, Repr

inductive FaultReason
  | none | contactTimeout | trialErrors | trialBoots | failover | noImage | digest | restarted | selfRestart
deriving DecidableEq, Repr

/-- The trial window (R104). Times in milliseconds. -/
structure TrialWindow where
  last : Nat
  good : Nat
  errors : Nat
  token : Bytes
  deadline : Nat
  min : Nat
  max : Nat
  limit : Nat
deriving DecidableEq, Repr

/-- What a Supervisor has in progress between two commands: a release check (R95), the trial boot write (R96 step 1), or the
cell 0 digest (R96 step 2). -/
inductive SupWork
  | none
  | checking (check : Nat) (slot : SlotNo) (manifest : Bytes) (chunk : Nat) (ctx : Option DigestCtx)
  | trialBoot (slot : SlotNo)
  | cell0 (check : Nat) (slot : SlotNo) (state : ServedState)
deriving DecidableEq, Repr

/-- The Master Record (R90), with the work in progress. -/
structure MasterRec where
  phase : Phase
  hold : Option HoldCause
  holdDeadline : Option Nat
  window : Option Window
  served : Served
  servedState : Option ServedState
  contact : Option Nat
  trial : Option TrialWindow
  bootFailures : Nat
  fault : FaultReason
  /-- When its reset line was asserted, in milliseconds (R98). -/
  assertedAt : Nat
  work : SupWork
  /-- The verification read outstanding, by check, if any (R5). -/
  read : Option Nat
  /-- The trial slot that is not tried at this release, the count of its boot having failed (R96 step 1). -/
  skip : Option SlotNo
deriving DecidableEq, Repr

inductive ResetCause
  | power | pin | request
deriving DecidableEq, Repr

/-- The STAT output (R114): the priority in force, whether it is on, and when its present period began, in microseconds. -/
structure Stat where
  priority : Nat
  on : Bool
  since : Nat
deriving DecidableEq, Repr

/-! ### Record Store (02_the_record_store.md) -/

/-- The record types (R23). -/
inductive RecType
  | lifecycle | epoch | settingsFactory | settingsOwner | slot | bootfail | key | cred | journalCommit | journalWipe | retired
deriving DecidableEq, Repr

inductive StoreCond
  | unmounted | mounting | mounted
deriving DecidableEq, Repr

/-- A sector's state in the RAM view; `out` is a sector that takes no part in the cycle: retired, unclean, or awaiting the
erase of a faulted header (R19, R25, R35). -/
inductive SecState
  | erased | open | full | reclaiming | out
deriving DecidableEq, Repr

/-- The RAM view of one store sector (R19). A blank erase count or sequence is none. -/
structure SectorView where
  state : SecState
  count : Option Nat
  seq : Option Nat
  free : Nat
  valid : Nat
deriving DecidableEq, Repr

/-- The mirror's entry for a current record (R23). -/
structure MirrorEntry where
  type : RecType
  id : Nat
  sector : Nat
  offset : Nat
  seq : Nat
  size : Nat
  hasPayload : Bool
  ownerClass : Bool
deriving DecidableEq, Repr

/-- How a write ends (R24, R26, R27). -/
inductive WriteResult
  | durable | noSpace | fault
deriving DecidableEq, Repr

/-- What a verify does when its count's write has ended (R166, R169). -/
inductive VerifyThen
  | mismatch (r : Req) (count : Byte)
  | ok (r : Req)
  | claim (r : Req) (owner : Bytes)
deriving DecidableEq, Repr

/-- What the owner of a write does when it ends. -/
inductive WriteFor
  | stageBegin (r : Req) (sid : SlotId) (manifest : Bytes)
  /-- A slot change that has taken effect already (R70, R97); `c`, one of steps 2 to 4 of a commit, of a completion or of a
  replay (R123). -/
  | slotTaken (sid : SlotId) (c : Bool)
  /-- The slot's record written once more, with the entry as it stands: a failed write submitted again, or the correction of
  a record whose change was not applied (R70, log entry 14). `c`, for a write such as `slotTaken` marks. -/
  | slotAgain (sid : SlotId) (c : Bool)
  /-- A slot found to hold a retired sector becomes FAILED(DAMAGED) when DURABLE (R74, R85). -/
  | damage (r : Option Req) (sid : SlotId)
  /-- As `slotTaken`, for STAGE-END's FAILED outcome, whose answer waits for the write (R78). -/
  | stageEndFailed (r : Req) (sid : SlotId) (reason : Reason)
  | stageReady (r : Req) (sid : SlotId)
  | tryMark (r : Req) (sid : SlotId) (now : Bool)
  | abort (r : Req) (sid : SlotId)
  | blank (r : Req) (sid : SlotId)
  | trialBoot (sid : SlotId)
  | failover (sid : SlotId)
  /-- The write of a promoted FALLBACK in a failover, which the boot choice waits for (R102, R103). -/
  | promotion (sid : SlotId)
  /-- The count of a contact expiry, with the boot-failure limit taken at it (R102, R103). -/
  | bootFail (m : Master) (count limit : Nat)
  /-- A removal of the BOOTFAIL record, with the ANNOUNCE that waits for it; without one, a failover's (R101, R103). -/
  | bootFailClear (m : Master) (r : Option Req)
  /-- A removal of the BOOTFAIL record that has failed, submitted again (R101, R103): a write of no contact expiry (R102). -/
  | bootFailAgain (m : Master)
  | settings (owner : Bool) (v : Settings) (r : Req)
  | keyNew (r : Req) (e : KeyEntry) (depth : Option Nat)
  | keyRemoval (handle : Nat) (gen : Byte)
  | credCount (index : Nat) (then_ : Option VerifyThen)
  | credPut (r : Req) (e : CredEntry) (isNew : Bool)
  | credRemoval (index : Nat) (r : Option Req)
  | claimOwner (r : Req) (e : CredEntry)
  | claimLifecycle (r : Req) (e : CredEntry)
  | closeLifecycle (r : Req)
  | wipeOpen (r : Option Req)
  | wipeItem
  | wipeClose
  | journalOpen
  | journalClose
  | reclaimCopy
  | epoch
  | retiredList
  | mountRemoval
  /-- No record: the forced reclaim closes the OPEN sector it names (R30). -/
  | closeSector (k : Nat)
deriving DecidableEq, Repr

/-- A write (2.1): an empty payload is a removal record. -/
structure Write where
  type : RecType
  id : Nat
  payload : Bytes
  critical : Bool
  for_ : WriteFor
deriving DecidableEq, Repr

/-- How far the begun write has come (R24, R25, R27). -/
inductive WriteStep
  | tag
  /-- The header program of the new sector k, with its sector sequence; `former` is made FULL after it. -/
  | opening (k seq : Nat) (former : Option Nat)
  | closing
  | header
  | payload
  | tagProgram
  | valid
  | supersede
  | abandon
  /-- The faulted sector is programmed FULL and the write then ends FAULT. -/
  | giveUp
deriving DecidableEq, Repr

structure ActiveWrite where
  write : Write
  seq : Nat
  tag : Bytes
  step : WriteStep
  sector : Nat
  offset : Nat
  /-- Payload pages not yet submitted. -/
  pages : List (Nat × Bytes)
  attempt : Nat
  /-- The record it replaced, whose state is programmed SUPERSEDED last. -/
  old : Option MirrorEntry
deriving DecidableEq, Repr

/-- What a program of the Record Store is for. -/
inductive ProgFor
  | write
  | reclaimMark
  /-- The erase count of sector k after its erase (R25, R30). -/
  | count (k : Nat)
  /-- As `count`, for the reclaim's victim, whose reclaim then ends (R30). -/
  | reclaimCount (k : Nat)
  | formatCount (k : Nat)
  | mount
deriving DecidableEq, Repr

structure StoreProg where
  addr : Nat
  data : Bytes
  for_ : ProgFor
deriving DecidableEq, Repr

/-- How far a reclaim has come (R28 to R30). -/
inductive ReclaimStep
  | marking
  | reading
  | checking
  | copying
  | copied
  | waitErased
  /-- Every record has been passed over or copied, and a program into the victim has not ended (R29, R30). -/
  | settling
  | erasing
  | counting
deriving DecidableEq, Repr

structure Reclaim where
  victim : Nat
  offset : Nat
  step : ReclaimStep
  /-- Resumed by mount, which waits for its end (R35). -/
  resumed : Bool
deriving DecidableEq, Repr

inductive RecState
  | writing | valid | superseded
deriving DecidableEq, Repr

/-- A record as mount read it (R34). -/
structure Found where
  type : RecType
  id : Nat
  seq : Nat
  sector : Nat
  offset : Nat
  size : Nat
  state : RecState
  authentic : Bool
  payload : Bytes
  tag : Bytes
deriving DecidableEq, Repr

/-- A sector header as mount read it; the state is none when it is none of the four (R19, R35). -/
structure Header where
  state : Option SecState
  count : Option Nat
  seq : Option Nat
deriving DecidableEq, Repr

/-- The course of mount (R33 to R36). -/
inductive MountStep
  | key
  | headers
  | records
  | recordTag
  | repair
  | scan
  | erase
  | counts
  | reclaims
  | deviceKeys
  | commit
  | wipe
  | fixUps
  | ownerRemoval
  | retirements
  | epoch
deriving DecidableEq, Repr

structure Mount where
  /-- Started by formatting, so the masters are not held (R52); the FUSE-IDENTITY it serves. -/
  formatting : Option Req
  step : MountStep
  headers : List Header
  /-- Sectors still to read, the present one first, and the offset reached in it. -/
  todo : List Nat
  offset : Nat
  /-- The records read, and those written since; a record that has been programmed SUPERSEDED says so (R29, R34). -/
  found : List Found
  /-- Sectors whose reading ended at a malformed header. -/
  malformed : List Nat
  /-- The end of the last record of each sector read (R35). -/
  ends : List (Nat × Nat)
  /-- Records to be programmed SUPERSEDED once the retired set is known (R34). -/
  supersede : List (Nat × Nat)
  unclean : List Nat
  /-- Unclean sectors whose erase has not reported. -/
  erasing : List Nat
  /-- The current records, as the reading of every sector resolved them, and as a resumed reclaim resolved one again (R29,
  R34). -/
  resolved : List Found
  /-- A write of the wipe's replay has failed, so mount goes on without its end (R179). -/
  wipeFailed : Bool
deriving DecidableEq, Repr

/-- A write to be submitted again after a later DURABLE write, its payload taken from its owner at that moment, or a
removal record (R31, R70, R97, R101, R103, R134, R166, R173, R178). -/
structure Retry where
  type : RecType
  id : Nat
  removal : Bool
  for_ : WriteFor
deriving DecidableEq, Repr

structure Store where
  cond : StoreCond
  recordKey : Option Bytes
  nextSeq : Nat
  sectors : List SectorView
  mirror : List MirrorEntry
  writes : List Write
  cur : Option ActiveWrite
  progs : List StoreProg
  reclaim : Option Reclaim
  /-- The record the reclaim has read. -/
  copyRec : Option Found
  /-- Forced victims queued (R30). -/
  forced : List Nat
  /-- The sectors the forced reclaim names, while one is in progress (R30). -/
  named : Option (List Nat)
  /-- Named OPEN sectors whose close waits until an ERASED sector exists (R30). -/
  parked : List Nat
  retiredList : List Sector
  retiredHeld : Bool
  integrity : Nat
  epoch : Nat
  retry : List Retry
  mount : Option Mount
  /-- Sectors formatting still waits for, and the request it serves (R52). -/
  format : Option (List Nat × Req)
deriving DecidableEq, Repr

/-! ### The WORKING request -/

/-- The fields of a key to be made, before its material exists (R135). -/
structure NewKey where
  handle : Nat
  cls : KeyClass
  kind : KeyKind
  usages : Byte
  users : Byte
  binding : Binding
  label : Bytes
  limit : Option Nat
deriving DecidableEq, Repr

/-- What the WORKING request of a port waits for. `other` is work held by another block under the request's name. -/
inductive Work
  | none
  | other
  | stageDigest (target : Master) (overwrite : Bool) (manifest : Bytes)
  | stageVerify (target : Master) (overwrite : Bool) (manifest : Bytes)
  | stageErase (sid : SlotId)
  | stageData (sid : SlotId)
  | stageEnd (sid : SlotId)
  | keyCreate (k : NewKey)
  | sign
  | agree (keep : Option NewKey)
  | mac
  | pushDerive (rootHandle : Nat) (rootGen : Byte) (depth : Nat) (label : Bytes)
  | pushDigest (rootHandle : Nat) (rootGen : Byte) (depth : Nat) (secret : Bytes)
  | extend (cell : Nat) (digest : Bytes)
  | attest (statement : Bytes)
  | verify (name : Bytes) (serial : Nat)
  | claimCheck (serial : Nat) (owner : Bytes)
  | claimDigest (index : Nat) (salt : Bytes)
  | credDigest (e : CredEntry) (salt : Bytes) (isNew : Bool)
deriving DecidableEq, Repr

structure Port where
  req : ReqState
  no : Nat
  tag : Byte
  code : Byte
  answer : Option Answer
  flags : BitVec 8
  mask : BitVec 8
  work : Work
  boot : Option BootTrans
  /-- The bytes the last transaction served drove from its first defined byte on; past them it drove 0xFF (R180). -/
  out : Bytes
deriving DecidableEq, Repr

/-! ### Notices: what one block tells another inside a step -/

/-- A message from one block to another, handled inside the step that raised it. -/
inductive Notice
  | jobEnded (j : Job) (r : JobResult)
  | engineNext
  | programEnded (r : Requester) (res : ProgResult)
  | eraseEnded (f : EraseFor) (sec : Sector) (ok : Bool)
  | sectorRetired (sec : Sector)
  | fuseEnded (src : FuseSource) (job : FuseJob) (ok : Bool)
  | writeResult (w : Write) (res : WriteResult)
  | writeEnded (w : Write) (res : WriteResult)
  | masterReset (m : Master) (fault : Option FaultReason)
  | eligible (m : Master)
  | tryChoice (m : Master)
  | commitNext
  | mountNext
  | reclaimTest
  | wipeTest
  | forcedDone
deriving DecidableEq, Repr

/-! ### The part -/

/-- The state of the part. -/
structure State where
  /-- Commands waiting, first in first out. -/
  pending : List Instr
  /-- Notices not yet handled; empty between steps but for a chain of them past the model's budget, whose rest the next step
  handles first (log entry 16). -/
  inbox : List Notice
  /-- Microseconds since the part reset; the Timebase's count is a thousandth of it (log entry 2). -/
  clock : Nat
  /-- Free values drawn (log entry 9). -/
  free : Nat
  /-- Bytes drawn from the random source (log entry 8). -/
  rng : Nat
  /-- Names given to tasks and checks (log entry 16). -/
  uid : Nat
  /-- The flash array: cells in rising order of address, none equal to 0xFF (R1, log entry 4). -/
  flash : List Host.Cell
  ctl : FlashCtl
  store : Store
  fuses : Fuses
  bank : FuseBank
  engine : Engine
  image : ImageMgr
  keys : KeyMgr
  meas : MeasUnit
  creds : CredMgr
  sups : Tri MasterRec
  ports : Tri Port
  stat : Stat
  resetCause : ResetCause
deriving DecidableEq, Repr

/-- Reasons a step of the part stops: none. No rule of the manual stops the part, and no command of the model does; a
constructor would name one that did. -/
inductive Fault
deriving DecidableEq, Repr

/-- Reasons the model refuses a command. -/
inductive Refusal
  /-- Raised by exec for a command that has no meaning in the model yet. Safe: nothing is claimed of it. -/
  | notModelled (mnemonic : String)
deriving DecidableEq, Repr

/-! ### Reset values -/

/-- A signer row with every fuse intact. -/
def SignerRow.blank : SignerRow := ⟨0, false, false⟩

/-- The fuses of a part that leaves its maker: every fuse intact (3.5). -/
def Fuses.blank : Fuses :=
  { serial := 0, seed := 0, written := false, signer0 := .blank, signer1 := .blank, signer2 := .blank, signer3 := .blank,
    revoke := 0, counters := .const 0, closed := false }

/-- The fuse view of an intact bank; it stands until the read at part reset ends (log entry 10). -/
def FuseView.blank : FuseView :=
  { identity := .blank, serial := 0, signers := List.replicate 4 ⟨.blank, none⟩, revoked := 0, floors := .const 0,
    closed := false }

/-- R38, R47, R48: after a part reset the read is in progress and there is no fuse work. -/
def FuseBank.reset : FuseBank :=
  { view := .blank, reading := true, jobs := [], active := none, pendingWork := none, seen := false }

/-- R17. -/
def FlashCtl.reset : FlashCtl :=
  { reads := [], prog := none, wait := [], batch := none, next := [], outstanding := [], retired := [] }

/-- A sector of which the RAM view knows nothing yet (R19, R33). -/
def SectorView.unknown : SectorView := ⟨.out, none, none, 16, 0⟩

/-- R33. -/
def Store.reset : Store :=
  { cond := .unmounted, recordKey := none, nextSeq := 1, sectors := List.replicate 64 .unknown, mirror := [], writes := [],
    cur := none, progs := [], reclaim := none, copyRec := none, forced := [], named := none, parked := [], retiredList := [],
    retiredHeld := false, integrity := 0, epoch := 0, retry := [], mount := none, format := none }

/-- R65. -/
def Engine.reset : Engine := ⟨[], []⟩

/-- A BLANK entry with the reset values of R68. -/
def SlotEntry.blank : SlotEntry :=
  { state := .blank, reason := none, manifest := none, tryMark := false, trialBoots := 0, received := 0, owner := none,
    checked := false, erasePending := false }

/-- R67, R82, R115. -/
def ImageMgr.reset : ImageMgr :=
  { slots := .const ⟨.blank, .blank⟩, tasks := [], checks := [], reads := [], pages := [], commit := none, waitingCommits := [],
    journal := none, replay := none, owed := [], second := none }

/-- R128, R129, R145. -/
def KeyMgr.reset : KeyMgr :=
  { table := [], gens := List.replicate 48 0, holds := [], destroys := [], stackOf := .const [] }

/-- Thirty-two bytes of 0x00 (9.1). -/
def zeroValue : Bytes := List.replicate 32 0

/-- R150 after a part reset. -/
def MeasSet.reset : MeasSet :=
  { cells := List.replicate 8 zeroValue, locks := List.replicate 8 false, log := [], releases := 0 }

/-- R150. -/
def MeasUnit.reset : MeasUnit := ⟨.const .reset, 0⟩

/-- R162, R164, R168, R175: the filter of the button input runs from the part reset, so no press is established at it. -/
def CredMgr.reset : CredMgr :=
  { table := [], holds := [], deleted := [], grants := .const none, lifecycle := .manufacture, recorded := none, wipe := .none,
    wipeCause := .request, wiping := false, button := .waiting, buttonDeadline := none, pressed := false,
    factorySettings := none, ownerSettings := none }

/-- R90 after a part reset. -/
def MasterRec.reset : MasterRec :=
  { phase := .held, hold := some .restarting, holdDeadline := some 50, window := none, served := .none, servedState := none,
    contact := none, trial := none, bootFailures := 0, fault := .none, assertedAt := 0, work := .none, read := none,
    skip := none }

/-- R188. -/
def Port.reset : Port :=
  { req := .empty, no := 0, tag := 0, code := 0, answer := none, flags := 0, mask := 1, work := .none, boot := none, out := [] }

/-- R114: off until a condition holds; priority 4. -/
def Stat.reset : Stat := ⟨4, false, 0⟩

/-- The part right after the first power-on: every block at its part-reset values, every fuse intact, the array erased
(log entries 4 and 5). -/
def State.reset : State :=
  { pending := [], inbox := [], clock := 0, free := 0, rng := 0, uid := 0, flash := [], ctl := .reset, store := .reset,
    fuses := .blank, bank := .reset, engine := .reset, image := .reset, keys := .reset, meas := .reset, creds := .reset,
    sups := .const .reset, ports := .const .reset, stat := .reset, resetCause := .power }

end Sys2Proof.Machine
end

