-- ==== Sys2Proof/Machine/Ops.lean ====
section
/-! DEFINITION. The shared operations over the state: accessors, the flash array as memory, time, random and free values,
slots, settings. The Lerjun 330 has no processor exception: what a processor does there, this block does by raising an event
flag or a fault reason (Flags.lean). -/

namespace Sys2Proof.Machine

/-! ### The flash array as memory (R1 to R4, R9) -/

/-- The value of an erased location (1.1). -/
def erasedByte : Byte := 0xFF#8

/-- Bytes of the image area; the store area follows it (R1, log entry 6). -/
def imageBytes : Nat := 48 * 65536

/-- Bytes of the whole array (R1). -/
def flashBytes : Nat := imageBytes + 64 * 4096

/-- The size of a sector (R1). -/
def Sector.size (c : Sector) : Nat :=
  match c.area with
  | .image => 65536
  | .store => 4096

/-- The flat address of a sector's first location. -/
def Sector.base (c : Sector) : Nat :=
  match c.area with
  | .image => c.index * 65536
  | .store => imageBytes + c.index * 4096

/-- Store sector `k`. -/
def storeSector (k : Nat) : Sector := ⟨.store, k⟩

/-- The flat address of an offset in store sector `k`. -/
def storeAddr (k off : Nat) : Nat := (storeSector k).base + off

/-- The value of one location; an unlisted one reads erased. -/
def memRead : List Host.Cell → Nat → Byte
  | [], _ => erasedByte
  | (a, v) :: r, x => if x = a then v else memRead r x

/-- Writes one location, keeping the canonical form; there is no location past the array's end. -/
def memWrite : List Host.Cell → Nat → Byte → List Host.Cell
  | [], x, v => if v = erasedByte ∨ flashBytes ≤ x then [] else [(x, v)]
  | (a, w) :: r, x, v =>
    if x < a then
      if v = erasedByte ∨ flashBytes ≤ x then (a, w) :: r else (x, v) :: (a, w) :: r
    else if x = a then
      if v = erasedByte then r else (x, v) :: r
    else (a, w) :: memWrite r x v

/-- The canonical form: addresses strictly rising from at least `lo`, inside the array, no entry equal to the erased
value. -/
def memWfFrom : Nat → List Host.Cell → Bool
  | _, [] => true
  | lo, (a, v) :: r => decide (lo ≤ a) && decide (a < flashBytes) && decide (v ≠ erasedByte) && memWfFrom (a + 1) r

/-- The memory's canonical form. -/
def Memory.wf (m : List Host.Cell) : Bool := memWfFrom 0 m

/-- The bytes of a run, in ascending order (R2). -/
def memBytes (m : List Host.Cell) (start len : Nat) : Bytes := (List.range len).map fun i => memRead m (start + i)

/-- What a program leaves at a location that held `old`: bits can only be cleared; of the bits to be cleared, those in
`stuck` stay (R3, R4). -/
def programmed (old data stuck : Byte) : Byte := old &&& (data ||| stuck)

/-- The array after a program of `data` at `start`, with `stuck` bits left, a missing byte of it meaning none (R3, R4). -/
def memProgram (m : List Host.Cell) (start : Nat) : Bytes → Bytes → List Host.Cell
  | [], _ => m
  | d :: ds, stuck =>
    memProgram (memWrite m start (programmed (memRead m start) d (stuck.headD 0))) (start + 1) ds stuck.tail

/-- The read-back of a program: every location holds the value R3 gives. -/
def programGood (m : List Host.Cell) (start : Nat) : Bytes → Bytes → Bool
  | [], _ => true
  | d :: ds, stuck =>
    decide (programmed (memRead m start) d (stuck.headD 0) = programmed (memRead m start) d 0) &&
      programGood m (start + 1) ds stuck.tail

/-- The bits an erase failed to set at an offset. -/
def keptAt (kept : List (Nat × Byte)) (off : Nat) : Byte :=
  match kept.find? (fun p => p.1 = off) with
  | some p => p.2
  | none => 0

/-- What an erase leaves at a location that held `old`: bits in `kept` keep their value, every other is 1 (R9). -/
def erasedTo (old kept : Byte) : Byte := old ||| ~~~kept

/-- The array after an erase of the run `[base, base + size)` (R9). -/
def memErase (base size : Nat) (kept : Nat → Byte) : List Host.Cell → List Host.Cell
  | [] => []
  | (a, v) :: r =>
    if base ≤ a ∧ a < base + size then
      if erasedTo v (kept (a - base)) = erasedByte then memErase base size kept r
      else (a, erasedTo v (kept (a - base))) :: memErase base size kept r
    else (a, v) :: memErase base size kept r

/-- Whether every location of a sector reads erased (R9, R35). -/
def sectorErased (m : List Host.Cell) (c : Sector) : Bool :=
  m.all fun p => !(decide (c.base ≤ p.1) && decide (p.1 < c.base + c.size)) || decide (p.2 = erasedByte)

/-- Whether a run touches a sector. -/
def Run.touches (r : Run) (c : Sector) : Bool :=
  decide (0 < r.len) && decide (r.start < c.base + c.size) && decide (c.base < r.start + r.len)

/-! ### Accessors -/

/-- The Timebase: milliseconds since the part reset. -/
def State.ms (s : State) : Nat := s.clock / 1000

def State.port (s : State) (m : Master) : Port := s.ports.get m

def State.modPort (s : State) (m : Master) (f : Port → Port) : State :=
  { s with ports := s.ports.set m (f (s.ports.get m)) }

def State.sup (s : State) (m : Master) : MasterRec := s.sups.get m

def State.modSup (s : State) (m : Master) (f : MasterRec → MasterRec) : State :=
  { s with sups := s.sups.set m (f (s.sups.get m)) }

def State.modStore (s : State) (f : Store → Store) : State := { s with store := f s.store }

def State.modCtl (s : State) (f : FlashCtl → FlashCtl) : State := { s with ctl := f s.ctl }

def State.modImage (s : State) (f : ImageMgr → ImageMgr) : State := { s with image := f s.image }

def State.modKeys (s : State) (f : KeyMgr → KeyMgr) : State := { s with keys := f s.keys }

def State.modCreds (s : State) (f : CredMgr → CredMgr) : State := { s with creds := f s.creds }

def State.modBank (s : State) (f : FuseBank → FuseBank) : State := { s with bank := f s.bank }

def State.measSet (s : State) (m : Master) : MeasSet := s.meas.sets.get m

def State.modMeas (s : State) (m : Master) (f : MeasSet → MeasSet) : State :=
  { s with meas := { s.meas with sets := s.meas.sets.set m (f (s.meas.sets.get m)) } }

/-- Raises a notice, to be handled inside this step. -/
def State.post (s : State) (n : Notice) : State := { s with inbox := s.inbox ++ [n] }

/-- A fresh name for a task or a check. -/
def State.fresh (s : State) : Nat × State := (s.uid, { s with uid := s.uid + 1 })

/-! ### Random and free values -/

/-- The next `n` bytes of the internal random source (log entry 8). -/
def State.random (s : State) (n : Nat) : Bytes := (List.range n).map fun i => Config.randomByte (s.rng + i)

/-- `n` random bytes have been drawn. -/
def State.drawn (s : State) (n : Nat) : State := { s with rng := s.rng + n }

/-- The next `n` indeterminate bytes (log entry 9). -/
def State.freeBytes (s : State) (n : Nat) : Bytes := (List.range n).map fun i => Config.freeByte (s.free + i)

/-- `n` free values have been used. -/
def State.usedFree (s : State) (n : Nat) : State := { s with free := s.free + n }

/-! ### Time (log entry 2) -/

/-- Lets `d` microseconds pass: active time runs for an active program that is not suspended and for a RUNNING batch
(R3, R9, R10, R13). -/
def State.pass (s : State) (d : Nat) : State :=
  { s with
    clock := s.clock + d
    ctl := { s.ctl with
      prog := s.ctl.prog.map fun p => if p.suspended then p else { p with active := p.active + d }
      batch := s.ctl.batch.map fun b => if b.state = .running then { b with active := b.active + d } else b } }

/-- Lets time pass until the clock has reached `t` microseconds, if it has not. -/
def State.until (s : State) (t : Nat) : State := if s.clock < t then s.pass (t - s.clock) else s

/-- Lets time pass until the Timebase has reached `t` milliseconds, if it has not. -/
def State.untilMs (s : State) (t : Nat) : State := s.until (t * 1000)

/-! ### Settings (R111) -/

/-- The built-in defaults (R111). -/
def Settings.default : Settings :=
  { contact := .const 20000, trialMin := 1000, trialMax := 30000, errorLimit := 2, trialBoots := 2, bootFailureLimit := 3,
    authority := ⟨7#8, 2#8, 4#8⟩, grantTime := 120, lockoutThreshold := 5, lockoutBase := 60 }

/-- The effective settings (R111). -/
def State.settings (s : State) : Settings :=
  match s.creds.ownerSettings with
  | some v => v
  | none =>
    match s.creds.factorySettings with
    | some v => v
    | none => .default

/-! ### Masters and slots -/

/-- APP is running the rescue image (R71, R158, R190). -/
def State.onRescue (s : State) : Bool :=
  decide ((s.sup .app).phase = .running) && decide ((s.sup .app).served = .rescue)

/-- Update authority of `m` for `target`: as the effective settings give, but for APP on the rescue image, which has its own
slots whatever they say (R71). -/
def State.authority (s : State) (m target : Master) : Bool :=
  if m = .app ∧ s.onRescue = true then decide (target = .app) else hasBit (s.settings.authority.get m) target.idx

/-- The slot's id (R67). -/
def SlotId.id (i : SlotId) : Nat := 2 * i.master.idx + i.slot.idx

/-- The six slots in order of SLOT id. -/
def SlotId.all : List SlotId :=
  [⟨.app, .s0⟩, ⟨.app, .s1⟩, ⟨.radio, .s0⟩, ⟨.radio, .s1⟩, ⟨.line, .s0⟩, ⟨.line, .s1⟩]

/-- The slot of a SLOT id. -/
def SlotId.ofId (n : Nat) : Option SlotId := SlotId.all[n]?

def SlotPair.get (p : SlotPair) : SlotNo → SlotEntry
  | .s0 => p.slot0
  | .s1 => p.slot1

def SlotPair.set (p : SlotPair) (n : SlotNo) (e : SlotEntry) : SlotPair :=
  match n with
  | .s0 => { p with slot0 := e }
  | .s1 => { p with slot1 := e }

def State.slot (s : State) (i : SlotId) : SlotEntry := (s.image.slots.get i.master).get i.slot

/-- Stores an entry without raising any flag. -/
def State.putSlot (s : State) (i : SlotId) (e : SlotEntry) : State :=
  { s with image := { s.image with
      slots := s.image.slots.set i.master ((s.image.slots.get i.master).set i.slot e) } }

/-- The first large sector of a slot (R67). -/
def SlotId.firstSector (i : SlotId) : Nat :=
  match i.master, i.slot with
  | .app, .s0 => 0
  | .app, .s1 => 12
  | .radio, .s0 => 24
  | .radio, .s1 => 28
  | .line, .s0 => 32
  | .line, .s1 => 40

/-- How many large sectors a slot of a master has (R67). -/
def slotSectors : Master → Nat
  | .app => 12
  | .radio => 4
  | .line => 8

/-- The large sectors of a slot, ascending (R67). -/
def SlotId.sectors (i : SlotId) : List Sector :=
  (List.range (slotSectors i.master)).map fun k => ⟨.image, i.firstSector + k⟩

/-- The capacity of each slot of a master in bytes (R67). -/
def slotCapacity (m : Master) : Nat := slotSectors m * 65536

/-- The flat address of body byte `b` of a slot (R67). -/
def SlotId.bodyAddr (i : SlotId) (b : Nat) : Nat := i.firstSector * 65536 + b

/-- The slot contains a sector of the retired set. -/
def State.slotRetired (s : State) (i : SlotId) : Bool := i.sectors.any fun c => decide (c ∈ s.ctl.retired)

/-! ### Manifests (R69, 11.8) -/

def manifestFormat (m : Bytes) : Nat := (byteAt 0 m).toNat
def manifestTarget (m : Bytes) : Nat := (byteAt 1 m).toNat
def manifestSigner (m : Bytes) : Nat := (byteAt 2 m).toNat
def manifestLevel (m : Bytes) : Nat := (byteAt 3 m).toNat
def manifestMask (m : Bytes) : Byte := byteAt 4 m
def manifestFlags (m : Bytes) : Byte := byteAt 5 m
def manifestBuild (m : Bytes) : Nat := leNat (slice 8 4 m)
def manifestLength (m : Bytes) : Nat := leNat (slice 12 4 m)
def manifestDigest (m : Bytes) : Bytes := slice 16 32 m
def manifestKey (m : Bytes) : Bytes := slice 48 64 m
def manifestSignature (m : Bytes) : Bytes := slice 112 64 m

/-- The signers a revoke mask names (R69). -/
def maskSet (b : Byte) : BitVec 4 := b.setWidth 4

/-- A manifest is well formed (R69). -/
def manifestWellFormed (m : Bytes) : Bool :=
  decide (manifestFormat m = 1) && decide (manifestTarget m ≤ 2) && decide (manifestSigner m ≤ 3) &&
    decide (manifestLevel m ≤ 64) && decide ((manifestMask m).toNat < 16) && decide ((manifestFlags m).toNat < 2) &&
    decide (slice 6 2 m = [0, 0])

/-- The entry's manifest, empty when absent. -/
def SlotEntry.mf (e : SlotEntry) : Bytes := e.manifest.getD []

/-- The signer row is GOOD (R40). -/
def FuseView.present (v : FuseView) (signer : Nat) : Bool :=
  match v.signers[signer]? with
  | some r => decide (r.state = .good)
  | none => false

/-- The signer is revoked (R41). -/
def FuseView.isRevoked (v : FuseView) (signer : Nat) : Bool := v.revoked.getLsbD signer

/-- The pending slot of a master: a slot in a staging state, in READY or in TRIAL (5.1). -/
def SlotState.pending : SlotState → Bool
  | .erasing | .loading | .loaded | .checking | .ready | .trial => true
  | .blank | .current | .fallback | .failed => false

/-- A staging state (5.1). -/
def SlotState.staging : SlotState → Bool
  | .erasing | .loading | .loaded | .checking => true
  | .blank | .ready | .trial | .current | .fallback | .failed => false

/-- The first slot of a master that satisfies `p`, slot 0 first. -/
def State.findSlot (s : State) (m : Master) (p : SlotEntry → Bool) : Option SlotId :=
  if p (s.slot ⟨m, .s0⟩) then some ⟨m, .s0⟩ else if p (s.slot ⟨m, .s1⟩) then some ⟨m, .s1⟩ else none

def State.pendingSlot (s : State) (m : Master) : Option SlotId := s.findSlot m fun e => e.state.pending

/-- The session a port owns (5.1). -/
def State.session (s : State) (m : Master) : Option SlotId :=
  SlotId.all.find? fun i => decide ((s.slot i).owner = some m) && (s.slot i).state.staging

/-- The commit's journal has been submitted, and its last fuse job has not ended (R89, R117, R121). -/
def Commit.opened (c : Commit) : Bool :=
  match c.step with
  | .journal | .slotFallback | .revoke | .counter => true
  | .completionWrites | .completionRevoke | .completionCounter | .writes | .close => false

/-- The commit is completing an earlier one (R116). -/
def Commit.completing (c : Commit) : Bool :=
  match c.step with
  | .completionWrites | .completionRevoke | .completionCounter => true
  | .journal | .slotFallback | .revoke | .counter | .writes | .close => false

/-- A commit is in progress for R89, R54 and what cites R89: from the submission of its journal, and while it completes an
earlier one, until its COUNTER job has ended (R89, R114, R116, R117, R121). -/
def State.commitInProgress (s : State) : Bool := s.image.commit.any fun c => c.opened || c.completing

/-- A commit of the master is in progress (R80, R89, R124). -/
def State.commitHolds (s : State) (m : Master) : Bool :=
  s.commitInProgress && s.image.commit.any fun c => decide (c.cause.master = m)

/-- The revoke mask of the commit in progress, empty when there is none (R78). DEDUCED: a commit that is completing an
earlier one counts as in progress for R89 and R54 only (R116), so its mask is not in force yet (log entry 32). -/
def State.commitMask (s : State) : BitVec 4 :=
  match s.image.commit with
  | some c => if c.opened then c.revoke else 0
  | none => 0

/-- The requester's grant is open (R168). -/
def State.granted (s : State) (m : Master) : Bool := (s.creds.grants.get m).isSome

/-! ### Pins computed from the state -/

/-- The reset line of a master is asserted (R91). -/
def State.resetAsserted (s : State) (m : Master) : Bool := decide ((s.sup m).phase = .held)

/-- ALERT of a master's port is asserted (R187). -/
def State.alertAsserted (s : State) (m : Master) : Bool := decide ((s.port m).flags &&& (s.port m).mask ≠ 0)

end Sys2Proof.Machine
end

