-- ==== Sys2Proof/Machine/Flags.lean ====
section
/-! DEFINITION. Event flags and ALERT (R186 to R188), fault reasons (R109), SLOT raises (R70, R186), answers (R183), and the
STAT output (R114). -/

namespace Sys2Proof.Machine

/-! ### Event flags, bit positions of 11.8 -/

def flagAnswer : BitVec 8 := 0x01#8
def flagFrameErr : BitVec 8 := 0x02#8
def flagOverrun : BitVec 8 := 0x04#8
def flagProto : BitVec 8 := 0x08#8
def flagSlot : BitVec 8 := 0x10#8
def flagOwner : BitVec 8 := 0x20#8
def flagPeer : BitVec 8 := 0x40#8
def flagFault : BitVec 8 := 0x80#8

/-- Raises a flag of a port; raising a raised flag changes nothing (11.1, R186). -/
def State.raise (s : State) (m : Master) (flag : BitVec 8) : State :=
  s.modPort m fun p => { p with flags := p.flags ||| flag }

/-- Raises OWNER on every port (R42, R164). -/
def State.raiseOwnerAll (s : State) : State :=
  ((s.raise .app flagOwner).raise .radio flagOwner).raise .line flagOwner

/-- Sets a fault reason; one other than NONE raises FAULT on the master's port and, for RADIO and LINE, PEER on APP's
(R109, R186). -/
def State.setFault (s : State) (m : Master) (f : FaultReason) : State :=
  let s := s.modSup m fun r => { r with fault := f }
  if f = .none then s
  else
    let s := s.raise m flagFault
    if m = .app then s else s.raise .app flagPeer

/-- Raises SLOT for a change of a slot of `m`: on the port of `m`, and on APP's port while APP holds update authority for
`m` (R70, R186). -/
def State.raiseSlot (s : State) (m : Master) : State :=
  let s := s.raise m flagSlot
  if m ≠ .app ∧ s.authority .app m = true then s.raise .app flagSlot else s

/-- A change of a slot entry takes effect; a change of its state or reason raises SLOT (R70). -/
def State.setSlot (s : State) (i : SlotId) (e : SlotEntry) : State :=
  let old := s.slot i
  let s := s.putSlot i e
  if old.state = e.state ∧ old.reason = e.reason then s else s.raiseSlot i.master

/-! ### Answers -/

/-- The request is still the one WORKING on its port (R183). -/
def State.live (s : State) (r : Req) : Bool :=
  decide ((s.port r.port).req = .working) && decide ((s.port r.port).no = r.no)

/-- What the WORKING request waits for. -/
def State.workOf (s : State) (r : Req) : Work := if s.live r then (s.port r.port).work else .none

/-- Records what the WORKING request waits for. -/
def State.setWork (s : State) (r : Req) (w : Work) : State :=
  if s.live r then s.modPort r.port fun p => { p with work := w } else s

/-- Makes the answer ready: the buffer is filled, the state becomes ANSWERED and ANSWER is raised; the answer of a dropped
request is discarded (R183). -/
def State.answer (s : State) (r : Req) (st : Status) (payload : Bytes) : State :=
  if s.live r then
    s.modPort r.port fun p =>
      { p with req := .answered, answer := some ⟨st, p.tag, payload⟩, flags := p.flags ||| flagAnswer, work := .none }
  else s

/-- A CRED-PUT has ended, or is given up: that its entry was removed need not be known any more (R171). -/
def State.forgetPut (s : State) (r : Req) : State :=
  s.modCreds fun c => { c with deleted := c.deleted.filter fun x => !decide (x = r) }

/-- The code of a slot reason or detail (11.8). -/
def Reason.code : Reason → Byte
  | .aborted => 0x01 | .interrupted => 0x02 | .signature => 0x03 | .signerAbsent => 0x04 | .signerRevoked => 0x05
  | .signerPendingRevoke => 0x06 | .revokeInUse => 0x07 | .wrongTarget => 0x08 | .level => 0x09 | .length => 0x0A
  | .digest => 0x0B | .flash => 0x0C | .damaged => 0x0D | .trialErrors => 0x0E | .trialBoots => 0x0F
  | .bootFailures => 0x10 | .belowFloor => 0x11 | .revokedLater => 0x12 | .format => 0x13

/-- The detail byte, 0x00 where no detail is named (R191). -/
def detailCode : Option Reason → Byte
  | none => 0x00
  | some r => r.code

/-- An answer that refuses or reports: its payload begins with the detail byte (R191). -/
def State.refuse (s : State) (r : Req) (st : Status) (detail : Option Reason := none) : State :=
  s.answer r st [detailCode detail]

/-- STORE_FULL for NO_SPACE, FLASH_FAULT for FAULT (R26, R27, R70). -/
def WriteResult.status : WriteResult → Status
  | .durable => .ok
  | .noSpace => .storeFull
  | .fault => .flashFault

/-! ### STAT (R114) -/

/-- The commit part of STAT's condition 3: a commit in progress, or its replay up to its last fuse job. -/
def State.statCommit (s : State) : Bool :=
  s.commitInProgress ||
    match s.image.replay with
    | some p => (match p.step with
      | .slotFallback | .revoke | .counter => true
      | .writes | .close => false)
    | none => false

/-- The first condition of R114's table that holds. -/
def State.statPriority (s : State) : Nat :=
  if Master.all.any fun m => decide ((s.sup m).hold = some .recovery) then 1
  else if s.creds.wiping then 2
  else if (SlotId.all.any fun i => decide ((s.slot i).state = .trial)) || s.statCommit then 3
  else 4

/-- Re-evaluates STAT: a new priority starts its pattern, a blinking one with its on period; the same priority leaves the
pattern alone (R114). -/
def State.updateStat (s : State) : State :=
  if s.statPriority = s.stat.priority then s
  else { s with stat := ⟨s.statPriority, decide (s.statPriority ≤ 3), s.clock⟩ }

/-- The length of an on or off period of a blinking pattern, in microseconds (R114). -/
def statPeriod (priority : Nat) : Option Nat :=
  if priority = 2 then some 250000 else if priority = 3 then some 1000000 else none

end Sys2Proof.Machine
end

