-- ==== Sys2Proof/Machine/Fuse.lean ====
section
/-! DEFINITION. The Fuse Bank (03_the_fuse_bank_and_manufacture.md): fuses, the fuse view, fuse jobs. It blows no fuse itself:
FUSE_ATTEMPT_END and a part reset do. -/

namespace Sys2Proof.Machine

/-! ### Fuses (R38 to R42) -/

def Fuses.row (f : Fuses) (r : Nat) : SignerRow :=
  match r with
  | 0 => f.signer0
  | 1 => f.signer1
  | 2 => f.signer2
  | _ => f.signer3

def Fuses.modRow (f : Fuses) (r : Nat) (g : SignerRow → SignerRow) : Fuses :=
  match r with
  | 0 => { f with signer0 := g f.signer0 }
  | 1 => { f with signer1 := g f.signer1 }
  | 2 => { f with signer2 := g f.signer2 }
  | _ => { f with signer3 := g f.signer3 }

/-- Whether a fuse reads blown. -/
def Fuses.blown (f : Fuses) : FuseId → Bool
  | .serial i => f.serial.getLsbD i
  | .seed i => f.seed.getLsbD i
  | .identityWritten => f.written
  | .digest r i => (f.row r).digest.getLsbD i
  | .signerWritten r => (f.row r).written
  | .signerDefective r => (f.row r).defective
  | .revoke s => f.revoke.getLsbD s
  | .counter m k => (f.counters.get m).getLsbD k
  | .closed => f.closed

/-- The bank with one fuse blown. -/
def Fuses.blow (f : Fuses) : FuseId → Fuses
  | .serial i => { f with serial := f.serial ||| BitVec.twoPow 64 i }
  | .seed i => { f with seed := f.seed ||| BitVec.twoPow 256 i }
  | .identityWritten => { f with written := true }
  | .digest r i => f.modRow r fun w => { w with digest := w.digest ||| BitVec.twoPow 256 i }
  | .signerWritten r => f.modRow r fun w => { w with written := true }
  | .signerDefective r => f.modRow r fun w => { w with defective := true }
  | .revoke s => { f with revoke := f.revoke ||| BitVec.twoPow 4 s }
  | .counter m k => { f with counters := f.counters.set m (f.counters.get m ||| BitVec.twoPow 64 k) }
  | .closed => { f with closed := true }

/-- A 32-byte string as the bits of a row: bit 8j + k is bit k of byte j (log entry 10). -/
def rowBits (b : Bytes) : BitVec 256 := BitVec.ofNat 256 (leNat b)

/-- The 32-byte string a row's bits stand for. -/
def rowBytes (b : BitVec 256) : Bytes := le 32 b.toNat

/-- R39. -/
def Fuses.identityState (f : Fuses) : IdentityState :=
  if f.written then .programmed else if f.serial ≠ 0 ∨ f.seed ≠ 0 then .spoiled else .blank

/-- R40. -/
def SignerRow.view (w : SignerRow) : SignerView :=
  if w.defective then ⟨.defective, none⟩
  else if w.written then ⟨.good, some (rowBytes w.digest)⟩
  else if w.digest ≠ 0 then ⟨.defective, none⟩
  else ⟨.blank, none⟩

/-- The floor of a counter row, the count of its blown fuses (R41). -/
def counterFloor (c : BitVec 64) : Nat := (List.range 64).countP fun k => c.getLsbD k

/-- One read of every fuse (R38). -/
def Fuses.view (f : Fuses) : FuseView :=
  { identity := f.identityState
    serial := if f.written then f.serial else 0
    signers := [f.signer0.view, f.signer1.view, f.signer2.view, f.signer3.view]
    revoked := f.revoke
    floors := ⟨counterFloor f.counters.app, counterFloor f.counters.radio, counterFloor f.counters.line⟩
    closed := f.closed }

/-- The seed as the key of the three derivations (R39, R49). -/
def Fuses.seedBytes (f : Fuses) : Bytes := rowBytes f.seed

/-! ### Fuse jobs (R43 to R46) -/

/-- The fuses a job is to blow, in order. -/
def FuseJob.fuses (v : FuseView) : FuseJob → List FuseId
  | .identity serial seed =>
    ((List.range 64).filter fun i => serial.getLsbD i).map .serial ++
      ((List.range 256).filter fun i => seed.getLsbD i).map .seed ++ [.identityWritten]
  | .signer r d => ((List.range 256).filter fun i => d.getLsbD i).map (.digest r) ++ [.signerWritten r]
  | .close => [.closed]
  | .revoke set => ((List.range 4).filter fun i => set.getLsbD i).map .revoke
  | .counter m level => ((List.range 64).filter fun k => decide (v.floors.get m ≤ k) && decide (k < level)).map (.counter m)

/-- The lifecycle leaves MANUFACTURE at the refresh that first shows the closed fuse blown, and OWNER is raised on every
port (R42). That a part reset lies between the blow and the refresh makes no difference (log entry 10). -/
def State.closedSeen (s : State) : State :=
  if s.bank.view.closed = true ∧ s.bank.seen = false then
    ((s.modBank fun b => { b with seen := true }).modCreds fun c =>
      { c with lifecycle := c.recorded.getD .unowned }).raiseOwnerAll
  else s

/-- A job has ended: every fuse is read again, the view is replaced, and the result is reported (R38, R43). -/
def State.endFuseJob (s : State) (a : ActiveFuse) : State :=
  ((s.modBank fun b => { b with active := none, view := s.fuses.view }).closedSeen).post
    (.fuseEnded a.source a.job (!a.failed))

/-- Fuses that already read blown count as blown and take no attempt (R44); a job with none left ends. -/
def State.advanceFuse (s : State) (a : ActiveFuse) : State :=
  let a := { a with todo := a.todo.dropWhile s.fuses.blown, attempts := 0 }
  if a.todo.isEmpty then s.endFuseJob a else s.modBank fun b => { b with active := some a }

/-- Takes jobs from the job list while none is in progress and the read at part reset has ended (R38, R43). DESIGN CHOICE (log
entries 60 and 61): a job is run whatever its row has become since it was submitted. -/
def State.runBank (s : State) : Nat → State
  | 0 => s
  | n + 1 =>
    if s.bank.active.isSome || s.bank.reading then s
    else
      match s.bank.jobs with
      | [] => s
      | (j, src) :: rest =>
        let s := s.modBank fun b => { b with jobs := rest }
        (s.advanceFuse ⟨j, src, j.fuses s.bank.view, 0, false, false⟩).runBank n

/-- A fuse job is submitted (R43). -/
def State.submitFuse (s : State) (j : FuseJob) (src : FuseSource) : State :=
  let s := s.modBank fun b => { b with jobs := b.jobs ++ [(j, src)] }
  s.runBank (s.bank.jobs.length + 1)

/-- What a failed fuse does to its job (R45, R46). -/
def ActiveFuse.fuseFailed (a : ActiveFuse) : ActiveFuse :=
  match a.job with
  | .identity _ _ => { a with todo := [], failed := true }
  | .close => { a with todo := [], failed := true }
  | .counter _ _ => { a with todo := [], failed := true }
  | .revoke _ => { a with todo := a.todo.tail, failed := true }
  | .signer r _ => { a with todo := if a.marking then [] else [.signerDefective r], failed := true, marking := true }

/-- An attempt has ended with its read-back, the fuse already changed where it blew (R44). -/
def State.endAttempt (s : State) (blown : Bool) : State :=
  match s.bank.active with
  | none => s
  | some a =>
    let s' :=
      if blown then s.advanceFuse { a with todo := a.todo.tail }
      else if a.attempts + 1 < 3 then s.modBank fun b => { b with active := some { a with attempts := a.attempts + 1 } }
      else s.advanceFuse a.fuseFailed
    s'.runBank (s'.bank.jobs.length + 1)

/-- The fuse under attempt. -/
def FuseBank.underAttempt (b : FuseBank) : Option FuseId :=
  match b.active with
  | none => none
  | some a => a.todo.head?

/-- R48: the fuses after an abandoned attempt, blown or not as a free value says (log entry 10). -/
def State.fuseReset (s : State) : State :=
  let fuses := match s.bank.underAttempt with
    | none => s.fuses
    | some f => if Config.freeBit s.free then s.fuses.blow f else s.fuses
  { s.usedFree 1 with fuses := fuses, bank := { FuseBank.reset with seen := s.bank.seen } }

end Sys2Proof.Machine
end

