-- ==== Sys2Proof/Machine/Operands.lean ====
section
/-! DEFINITION. Requests as frames carry them: names and codes, availability (R190), payload layouts (R192), byte codes and
answer layouts (11.8), the acceptance of a frame (R181, R182). -/

namespace Sys2Proof.Machine

/-- The requests of the request-code table (R190, 11.8). -/
inductive RequestName
  | identify | masterState | announce | restart | partReset | settingsRead | settingsWrite
  | stageBegin | stageData | stageEnd | stageAbort | slotQuery | activate | trialCheck | slotErase
  | keyCreate | keyDestroy | keyInfo | keyFind | keyPublic | keySign | keyAgree | keyMac | derivePush | derivePop | deriveStore
  | extend | lockCell | readCells | readLog | attest
  | claim | credVerify | credPut | credGet | credDelete | credList | grantClose | relinquish
  | fuseIdentity | fuseSigner | closeManufacture
deriving DecidableEq, Repr

/-- Request codes (R190). -/
def RequestName.code : RequestName → Byte
  | .identify => 0x01 | .masterState => 0x02 | .announce => 0x03 | .restart => 0x04 | .partReset => 0x05
  | .settingsRead => 0x06 | .settingsWrite => 0x07
  | .stageBegin => 0x10 | .stageData => 0x11 | .stageEnd => 0x12 | .stageAbort => 0x13 | .slotQuery => 0x14
  | .activate => 0x15 | .trialCheck => 0x16 | .slotErase => 0x17
  | .keyCreate => 0x20 | .keyDestroy => 0x21 | .keyInfo => 0x22 | .keyFind => 0x23 | .keyPublic => 0x24
  | .keySign => 0x25 | .keyAgree => 0x26 | .keyMac => 0x27 | .derivePush => 0x28 | .derivePop => 0x29 | .deriveStore => 0x2A
  | .extend => 0x30 | .lockCell => 0x31 | .readCells => 0x32 | .readLog => 0x33 | .attest => 0x34
  | .claim => 0x40 | .credVerify => 0x41 | .credPut => 0x42 | .credGet => 0x43 | .credDelete => 0x44
  | .credList => 0x45 | .grantClose => 0x46 | .relinquish => 0x47
  | .fuseIdentity => 0x50 | .fuseSigner => 0x51 | .closeManufacture => 0x52

/-- Every request of the table. -/
def RequestName.all : List RequestName :=
  [.identify, .masterState, .announce, .restart, .partReset, .settingsRead, .settingsWrite,
   .stageBegin, .stageData, .stageEnd, .stageAbort, .slotQuery, .activate, .trialCheck, .slotErase,
   .keyCreate, .keyDestroy, .keyInfo, .keyFind, .keyPublic, .keySign, .keyAgree, .keyMac, .derivePush, .derivePop,
   .deriveStore, .extend, .lockCell, .readCells, .readLog, .attest, .claim, .credVerify, .credPut, .credGet, .credDelete,
   .credList, .grantClose, .relinquish, .fuseIdentity, .fuseSigner, .closeManufacture]

/-- A code of the request-code table. -/
def knownCode (c : Byte) : Bool := RequestName.all.any fun n => decide (n.code = c)

/-! ### Availability (R190) -/

/-- A row's limits: APP alone; lifecycles M, U, O; the three condition columns. -/
structure Avail where
  appOnly : Bool
  inM : Bool
  inU : Bool
  inO : Bool
  booting : Bool
  /-- The rescue column allows it in MANUFACTURE, and outside. -/
  rescueM : Bool
  rescueElse : Bool
  unmounted : Bool
deriving DecidableEq, Repr

/-- The table of R190. -/
def RequestName.avail : RequestName → Avail
  | .identify | .masterState | .announce => ⟨false, true, true, true, true, true, true, true⟩
  | .restart => ⟨false, true, true, true, false, false, false, false⟩
  | .partReset => ⟨true, true, true, true, false, false, false, false⟩
  | .settingsRead => ⟨false, true, true, true, false, true, false, false⟩
  | .settingsWrite => ⟨true, true, false, true, false, true, false, false⟩
  | .stageBegin | .stageData | .stageEnd | .stageAbort | .slotQuery => ⟨false, true, true, true, false, true, true, false⟩
  | .activate => ⟨false, true, true, true, false, true, true, false⟩
  | .trialCheck | .slotErase => ⟨false, true, true, true, false, false, false, false⟩
  | .keyCreate | .keyDestroy | .keyInfo | .keyFind => ⟨false, true, true, true, false, true, false, false⟩
  | .keyPublic => ⟨false, true, true, true, false, true, true, false⟩
  | .keySign | .keyAgree | .keyMac | .derivePush | .derivePop | .deriveStore =>
      ⟨false, true, true, true, false, false, false, false⟩
  | .extend | .lockCell | .readCells | .readLog => ⟨false, true, true, true, false, false, false, false⟩
  | .attest => ⟨false, true, true, true, false, true, true, false⟩
  | .claim => ⟨true, false, true, false, false, false, false, false⟩
  | .credVerify | .credGet | .credList | .grantClose => ⟨false, true, true, true, false, false, false, false⟩
  | .credPut | .credDelete => ⟨false, true, false, true, false, true, false, false⟩
  | .relinquish => ⟨true, false, false, true, false, false, false, false⟩
  | .fuseIdentity => ⟨true, true, false, false, false, true, true, true⟩
  | .fuseSigner | .closeManufacture => ⟨true, true, false, false, false, true, true, false⟩

/-- R190: available to this master, in the present lifecycle, in the master's condition and the store's. -/
def State.available (s : State) (m : Master) (n : RequestName) : Bool :=
  let a := n.avail
  let lc := match s.creds.lifecycle with
    | .manufacture => a.inM
    | .unowned => a.inU
    | .owned => a.inO
  let rescue := if s.creds.lifecycle = .manufacture then a.rescueM else a.rescueElse
  (!a.appOnly || decide (m = .app)) && lc &&
    (a.booting || !decide ((s.sup m).phase = .booting)) &&
    (rescue || !(decide (m = .app) && s.onRescue)) &&
    (a.unmounted || decide (s.store.cond = .mounted))

/-! ### Payload layouts (R192) -/

/-- A field of a payload. -/
inductive Field
  | fixed (n : Nat)
  | prefixed
  | rest
deriving DecidableEq, Repr

/-- The request payloads of 11.8. -/
def RequestName.layout : RequestName → List Field
  | .identify | .announce | .partReset | .stageEnd | .derivePop | .credList | .grantClose | .relinquish
  | .closeManufacture => []
  | .masterState => [.fixed 1, .fixed 1]
  | .restart | .settingsRead | .stageAbort | .slotQuery | .lockCell | .readCells => [.fixed 1]
  | .settingsWrite => [.fixed 23]
  | .stageBegin => [.fixed 1, .fixed 1, .fixed 176]
  | .stageData => [.fixed 4, .rest]
  | .activate | .slotErase | .readLog => [.fixed 1, .fixed 1]
  | .trialCheck => [.fixed 4]
  | .keyCreate => [.fixed 6, .fixed 32, .fixed 2, .rest]
  | .keyDestroy | .keyInfo | .keyPublic => [.fixed 1, .fixed 1]
  | .keyFind => [.rest]
  | .keySign => [.fixed 2, .fixed 32]
  | .keyAgree => [.fixed 2, .fixed 64, .fixed 1, .fixed 1, .rest]
  | .keyMac | .derivePush => [.fixed 2, .rest]
  | .deriveStore => [.fixed 5, .fixed 32, .rest]
  | .extend => [.fixed 1, .fixed 32]
  | .attest => [.fixed 1, .fixed 3, .fixed 32]
  | .claim | .credVerify => [.prefixed, .rest]
  | .credPut => [.fixed 4, .prefixed, .rest]
  | .credGet | .credDelete => [.rest]
  | .fuseIdentity => [.fixed 8]
  | .fuseSigner => [.fixed 1, .fixed 32]

/-- The payload fits the layout: enough bytes, no count past the end, nothing left unless the last field is *rest*
(R192). -/
def fits : List Field → Bytes → Bool
  | [], b => b.isEmpty
  | .fixed n :: fs, b => decide (n ≤ b.length) && fits fs (b.drop n)
  | .prefixed :: fs, b =>
    match b with
    | [] => false
    | n :: r => decide (n.toNat ≤ r.length) && fits fs (r.drop n.toNat)
  | .rest :: _, _ => true

/-- The bytes of a len-prefixed field, and what follows it. -/
def takePrefixed (b : Bytes) : Bytes × Bytes :=
  match b with
  | [] => ([], [])
  | n :: r => (r.take n.toNat, r.drop n.toNat)

/-! ### Acceptance of a frame (R181, R182) -/

/-- The frame is accepted: the answer buffer is emptied and the state becomes WORKING (R181 step 3). -/
def State.accept (s : State) (m : Master) (tag code : Byte) : State :=
  s.modPort m fun p => { p with req := .working, no := p.no + 1, tag := tag, code := code, answer := none, work := .none, out := [] }

/-- The request accepted last on a port. -/
def State.reqOf (s : State) (m : Master) : Req := ⟨m, (s.port m).no⟩

/-- The bytes the port has driven are those of a transaction that defines none: past the bytes kept, the output reads 0xFF
(R180, log entry 11). -/
def State.silent (s : State) (m : Master) : State := s.modPort m fun p => { p with out := [] }

/-- A REQUEST-WRITE with a right length and CRC-16 is judged when chip select rises: ignored from a HELD master (R180),
discarded with OVERRUN while WORKING, discarded with FRAME_ERR for a length over 1,024, otherwise accepted and handed to
`own` (R181). DESIGN CHOICE (log entry 25): such a command stands for a frame that was not ignored at its code byte and that no
master reset has ended; one that was is REQUEST_FRAME_DISCARDED. -/
def State.judge (s : State) (m : Master) (tag code : Byte) (payload : Bytes) (own : State → Req → State) : State :=
  if (s.sup m).phase = .held then s
  else if (s.port m).req = .working then (s.silent m).raise m flagOverrun
  else if 1024 < payload.length then (s.silent m).raise m flagFrameErr
  else
    let t := s.accept m tag code
    own t (t.reqOf m)

/-- R182: the Port Interface's tests in order, then the owner. -/
def State.request (s : State) (m : Master) (n : RequestName) (tag : Byte) (payload : Bytes) (own : State → Req → State) :
    State :=
  s.judge m tag n.code payload fun t r =>
    if t.available m n = false then t.refuse r .notPermitted
    else if fits n.layout payload = false then t.refuse r .badRequest
    else own t r

/-! ### Byte codes (11.8) -/

def Status.code : Status → Byte
  | .ok => 0x00 | .confirmed => 0x01 | .trialError => 0x02 | .mismatch => 0x03 | .badRequest => 0x10
  | .notPermitted => 0x11 | .notFound => 0x12 | .existsAlready => 0x13 | .full => 0x14 | .state => 0x15
  | .conflict => 0x16 | .outOfOrder => 0x17 | .lockedOut => 0x18 | .storeFull => 0x19 | .flashFault => 0x1A
  | .fuseFault => 0x1B | .unknownRequest => 0x1F

def ReqState.code : ReqState → Byte
  | .empty => 0 | .working => 1 | .answered => 2

def Lifecycle.code : Lifecycle → Byte
  | .manufacture => 0 | .unowned => 1 | .owned => 2

def holdCode : Option HoldCause → Byte
  | some .restarting => 0 | some .recovery => 1 | none => 0xFF

def Served.code : Served → Byte
  | .slot .s0 => 0 | .slot .s1 => 1 | .rescue => 2 | .none => 0xFF

def servedStateCode : Option ServedState → Byte
  | some .trial => 0 | some .current => 1 | some .rescue => 2 | none => 0xFF

def SlotState.code : SlotState → Byte
  | .blank => 0 | .erasing => 1 | .loading => 2 | .loaded => 4 | .checking => 4 | .ready => 5 | .trial => 6
  | .current => 7 | .fallback => 8 | .failed => 9

def FaultReason.code : FaultReason → Byte
  | .none => 0 | .contactTimeout => 1 | .trialErrors => 2 | .trialBoots => 3 | .failover => 4 | .noImage => 5
  | .digest => 6 | .restarted => 7 | .selfRestart => 8

def ResetCause.code : ResetCause → Byte
  | .power => 0 | .pin => 1 | .request => 2

def KeyClass.code : KeyClass → Byte
  | .device => 0 | .factory => 1 | .owner => 2 | .volatile => 3

def KeyKind.code : KeyKind → Byte
  | .sign => 0 | .agree => 1 | .secret => 2

def CredClass.code : CredClass → Byte
  | .factory => 0 | .owner => 1

/-- VERIFIER 0, SECRET 1. -/
def CredValue.kindCode : CredValue → Byte
  | .verifier _ _ => 0
  | .secret _ => 1

/-- The phase code; BOOTING with window PENDING has its own (11.8, R185). -/
def MasterRec.phaseCode (r : MasterRec) : Byte :=
  match r.phase with
  | .held => 0
  | .running => 2
  | .booting => if r.window = some .pending then 3 else 1

/-- The lifecycle byte of STATUS-READ: bit 7 set while a wipe is in progress (R185). -/
def State.lifecycleByte (s : State) : Byte :=
  s.creds.lifecycle.code ||| (if s.creds.wiping then 0x80#8 else 0#8)

/-- A Boolean as a byte. -/
def bit (b : Bool) : Byte := if b then 1 else 0

def KeyClass.ofCode : Byte → Option KeyClass
  | 0 => some .device | 1 => some .factory | 2 => some .owner | 3 => some .volatile | _ => none

def KeyKind.ofCode : Byte → Option KeyKind
  | 0 => some .sign | 1 => some .agree | 2 => some .secret | _ => none

def CredClass.ofCode : Byte → Option CredClass
  | 0 => some .factory | 1 => some .owner | _ => none

/-- Binding codes: none 0, SIGNER 1, CELL 2, GRANT 3; the ranges of their indices are tested by the form (R135). -/
def Binding.ofCode (code index : Byte) (value : Bytes) : Option Binding :=
  match code with
  | 0 => some .none
  | 1 => some (.signer index.toNat)
  | 2 => some (.cell index.toNat value)
  | 3 => some .grant
  | _ => none

def Binding.code : Binding → Byte
  | .none => 0 | .signer _ => 1 | .cell _ _ => 2 | .grant => 3

/-- The signer or cell of a binding, else 0 (11.8). -/
def Binding.indexByte : Binding → Byte
  | .signer k => BitVec.ofNat 8 k
  | .cell k _ => BitVec.ofNat 8 k
  | .none => 0
  | .grant => 0

/-- The 32-byte value of a CELL binding, else zeros (11.8). -/
def Binding.valueBytes : Binding → Bytes
  | .cell _ v => padTo 32 0 v
  | .none => List.replicate 32 0
  | .signer _ => List.replicate 32 0
  | .grant => List.replicate 32 0

/-- A byte-coded set of masters names only APP, RADIO and LINE (R192, log entry 23). -/
def masterSetValid (b : Byte) : Bool := decide (b.toNat < 8)

/-! ### The settings block (11.8) -/

/-- Settings as 23 bytes. -/
def Settings.bytes (v : Settings) : Bytes :=
  le 2 v.contact.app ++ le 2 v.contact.radio ++ le 2 v.contact.line ++ le 2 v.trialMin ++ le 4 v.trialMax ++
    le 1 v.errorLimit ++ le 1 v.trialBoots ++ le 1 v.bootFailureLimit ++
    [v.authority.app, v.authority.radio, v.authority.line] ++ le 2 v.grantTime ++ le 1 v.lockoutThreshold ++ le 2 v.lockoutBase

/-- The settings 23 bytes stand for. -/
def Settings.ofBytes (b : Bytes) : Settings :=
  { contact := ⟨leNat (slice 0 2 b), leNat (slice 2 2 b), leNat (slice 4 2 b)⟩
    trialMin := leNat (slice 6 2 b)
    trialMax := leNat (slice 8 4 b)
    errorLimit := (byteAt 12 b).toNat
    trialBoots := (byteAt 13 b).toNat
    bootFailureLimit := (byteAt 14 b).toNat
    authority := ⟨byteAt 15 b, byteAt 16 b, byteAt 17 b⟩
    grantTime := leNat (slice 18 2 b)
    lockoutThreshold := (byteAt 20 b).toNat
    lockoutBase := leNat (slice 21 2 b) }

/-- Every value lies in its range (R111, R112). -/
def Settings.inRange (v : Settings) : Bool :=
  let within := fun (lo n hi : Nat) => decide (lo ≤ n) && decide (n ≤ hi)
  within 2000 v.contact.app 60000 && within 2000 v.contact.radio 60000 && within 2000 v.contact.line 60000 &&
    within 200 v.trialMin 10000 && within (v.trialMin + 1000) v.trialMax 120000 && within 1 v.errorLimit 4 &&
    within 1 v.trialBoots 3 && within 1 v.bootFailureLimit 15 &&
    masterSetValid v.authority.app && masterSetValid v.authority.radio && masterSetValid v.authority.line &&
    within 10 v.grantTime 600 && within 3 v.lockoutThreshold 10 && within 10 v.lockoutBase 600

/-! ### Answer layouts (11.8) -/

/-- One 56-byte entry of a SLOT-QUERY answer (R83, 11.8). -/
def SlotEntry.queryBytes (e : SlotEntry) : Bytes :=
  [e.state.code, detailCode (if e.state = .failed then e.reason else none),
   bit e.manifest.isSome ||| (bit e.tryMark <<< 1) ||| (bit e.checked <<< 2) ||| (bit e.erasePending <<< 3),
   BitVec.ofNat 8 e.trialBoots] ++ le 4 e.received ++ padTo 48 0 (e.mf.take 48)

/-- The commit payload: slot, floor, revoked set, pending flag (R123, R191). -/
def State.commitPayload (s : State) (m : Master) (n : SlotNo) : Bytes :=
  [BitVec.ofNat 8 n.idx, BitVec.ofNat 8 (s.bank.view.floors.get m), s.bank.view.revoked.setWidth 8,
   bit s.bank.pendingWork.isSome]

/-- The answer frame: status, echoed tag, length, payload, CRC-16 (R183). -/
def Answer.frame (a : Answer) : Bytes :=
  let body := [a.status.code, a.tag] ++ le 2 a.payload.length ++ a.payload
  body ++ crcBytes body

/-- The NONE frame (R184). -/
def noneFrame (st : ReqState) : Bytes :=
  let body := [(0xFE#8 : Byte), st.code]
  body ++ crcBytes body

/-- A REQUEST-WRITE frame as it is clocked: code, tag, length, payload, CRC-16 (R181). -/
def requestFrame (code tag : Byte) (payload : Bytes) : Bytes :=
  let body := [code, tag] ++ le 2 payload.length ++ payload
  body ++ crcBytes body

/-- The frame is one R181 step 2 does not discard: a length of at most 1,024, exactly 6 + length bytes, a right CRC-16. -/
def frameGood (f : Bytes) : Bool :=
  let len := leNat (slice 2 2 f)
  decide (6 ≤ f.length) && decide (len ≤ 1024) && decide (f.length = 6 + len) &&
    decide (f.drop (4 + len) = crcBytes (f.take (4 + len)))

end Sys2Proof.Machine
end

