-- ==== Sys2Proof/Machine/KeyTable.lean ====
section
/-! DEFINITION. The Key Table (R128 to R133), charges and destruction (R138, R139), and the take at the start of a job
(R57, R58). -/

namespace Sys2Proof.Machine

/-! ### Handles, generations, labels (R128 to R131) -/

/-- The generation a handle of 1..48 carries (R129). -/
def State.genOf (s : State) (h : Nat) : Byte := s.keys.gens.getD (h - 1) 0

/-- The entry that occupies a handle. -/
def State.keyAt (s : State) (h : Nat) : Option KeyEntry := s.keys.table.find? fun e => decide (e.handle = h)

/-- The named key is found (R129). -/
def State.keyFound (s : State) (h : Nat) (g : Byte) : Option KeyEntry :=
  s.keys.table.find? fun e => decide (e.handle = h) && decide (e.gen = g) && !e.destroying

/-- A label is in use (R128). -/
def State.labelInUse (s : State) (l : Bytes) : Bool :=
  (s.keys.table.any fun e => !e.destroying && decide (e.label = l)) || s.keys.holds.any fun h => decide (h.label = l)

/-- The lowest free handle in 3..48 (R129). -/
def State.freeHandle (s : State) : Option Nat :=
  ((List.range 46).map (· + 3)).find? fun h =>
    !(s.keys.table.any fun e => decide (e.handle = h)) && !(s.keys.holds.any fun k => decide (k.handle = h))

/-- The count of VOLATILE keys (R130). -/
def State.volatileCount (s : State) : Nat :=
  (s.keys.table.countP fun e => decide (e.cls = .volatile)) + s.keys.holds.countP fun h => h.volatile

/-- A handle is free for one more key of the class (R130). -/
def State.roomForKey (s : State) (cls : KeyClass) : Option Nat :=
  if cls = .volatile ∧ 16 ≤ s.volatileCount then none else s.freeHandle

/-- The bit of a usage in a usage byte (11.8). -/
def Usage.bit : Usage → Nat
  | .sign => 0 | .agree => 1 | .mac => 2 | .derive => 3 | .deriveStore => 4 | .exportPublic => 5

def KeyEntry.hasUsage (e : KeyEntry) (u : Usage) : Bool := hasBit e.usages u.bit

/-- The usages a kind allows (R131). -/
def KeyKind.allowed : KeyKind → Byte
  | .sign => 0x21#8
  | .agree => 0x22#8
  | .secret => 0x1C#8

/-- A usage set that suits a kind (R131). -/
def usagesSuit (k : KeyKind) (u : Byte) : Bool :=
  decide (u ≠ 0) && decide (u &&& ~~~k.allowed = 0) && (!hasBit u 4 || hasBit u 3)

/-! ### Bindings and examinations (R132, R133) -/

/-- A binding is satisfied for a requester (R132). -/
def State.bindingMet (s : State) (m : Master) : Binding → Bool
  | .none => true
  | .signer k =>
    let r := s.sup m
    decide (r.phase = .running) &&
      (match r.served with
       | .slot n =>
         let e := s.slot ⟨m, n⟩
         decide (e.state = .current) && decide (manifestSigner e.mf = k) && s.bank.view.present k && !s.bank.view.isRevoked k
       | .rescue => false
       | .none => false)
  | .cell k v => (s.measSet m).locks.getD k false && decide ((s.measSet m).cells.getD k [] = v)
  | .grant => s.granted m

/-- Steps 2 and 3 of R133 for a key that is found. -/
def KeyEntry.allows (e : KeyEntry) (m : Master) (u : Usage) : Bool := hasBit e.users m.idx && e.hasUsage u

/-- The root of a master's stack (R145). -/
def State.stackRoot (s : State) (m : Master) : Option (Nat × Byte) :=
  (s.keys.stackOf.get m).head?.map fun e => (e.rootHandle, e.rootGen)

/-- Steps 1 to 3 of R133 for a found key, made when a request is taken: the failure, if any. -/
def State.examineTaking (s : State) (h : Nat) (g : Byte) (m : Master) (u : Usage) : Option Status :=
  match s.keyFound h g with
  | none => some .notFound
  | some e => if e.allows m u then none else some .notPermitted

/-- The whole of R133 for a table key: the failure, if any. -/
def State.examine (s : State) (h : Nat) (g : Byte) (m : Master) (u : Usage) : Option Status :=
  match s.keyFound h g with
  | none => some .notFound
  | some e => if e.allows m u && s.bindingMet m e.binding then none else some .notPermitted

/-! ### Destruction (R138) and charges (R139) -/

/-- Every stack rooted on the handle and generation is emptied (R145). -/
def State.emptyStacks (s : State) (h : Nat) (g : Byte) : State :=
  let clear := fun (st : List StackEntry) =>
    if st.any fun e => decide (e.rootHandle = h) && decide (e.rootGen = g) then [] else st
  s.modKeys fun k => { k with stackOf := ⟨clear k.stackOf.app, clear k.stackOf.radio, clear k.stackOf.line⟩ }

/-- KEY-DESTROY is answered when the entry has been freed and its removal record, if any, has ended (R138). DESIGN CHOICE (log
entry 56): where that write has failed, too, the answer waits until the entry is freed. -/
def State.finishDestroys (s : State) : State :=
  let ended := s.keys.destroys.filter fun d => d.freed && !d.writing
  let s := s.modKeys fun k => { k with destroys := k.destroys.filter fun d => !(d.freed && !d.writing) }
  ended.foldl (fun s d => if d.status = .ok then s.answer d.req .ok [] else s.refuse d.req d.status) s

/-- An entry is freed: it leaves the table and its handle's generation increases (R129, R138). -/
def State.freeKey (s : State) (h : Nat) (g : Byte) : State :=
  (s.modKeys fun k =>
    { k with
      table := k.table.filter fun e => !(decide (e.handle = h) && decide (e.gen = g))
      gens := k.gens.set (h - 1) (g + 1)
      destroys := k.destroys.map fun d => if d.handle = h ∧ d.gen = g then { d with freed := true } else d }).finishDestroys

/-- The key is in use by the running job (R58). -/
def State.keyInUse (s : State) (h : Nat) (g : Byte) : Bool :=
  s.engine.queue.any fun j => j.started && decide (j.inUse = some (h, g))

/-- A destroy acts on the tables (R138); `used` says a job is using the key. -/
def State.destroyKey (s : State) (h : Nat) (g : Byte) (used : Bool) : State :=
  let s := s.emptyStacks h g
  if used then
    s.modKeys fun k => { k with table := k.table.map fun e =>
      if e.handle = h ∧ e.gen = g then { e with destroying := true } else e }
  else s.freeKey h g

/-- A passing examination charges a use limit (R139); `used` says that the job it is made for uses the key. DESIGN CHOICE (log
entry 40): a limit brought to 0 by a use without a job frees the entry at once, as R139 gives, also while another master's
running job uses the key (R58, R138). -/
def State.charge (s : State) (h : Nat) (g : Byte) (used : Bool) : State :=
  match (s.keyFound h g).bind (·.limit) with
  | none => s
  | some n =>
    let s := s.modKeys fun k => { k with table := k.table.map fun e =>
      if e.handle = h ∧ e.gen = g then { e with limit := some (n - 1) } else e }
    if n ≤ 1 then s.destroyKey h g used else s

/-- The engine reports that a key is no longer in use; a DESTROYING entry is freed (R58, R138). -/
def State.releaseKey (s : State) (h : Nat) (g : Byte) : State :=
  if s.keys.table.any fun e => decide (e.handle = h) && decide (e.gen = g) && e.destroying then s.freeKey h g else s

/-- Every OWNER entry is destroyed at the start of a wipe (R149). -/
def State.destroyOwnerKeys (s : State) : State :=
  (s.keys.table.filter fun e => decide (e.cls = .owner) && !e.destroying).foldl
    (fun s e => s.destroyKey e.handle e.gen (s.keyInUse e.handle e.gen)) s

/-! ### Takes (R57) -/

inductive Take
  | taken (s : State) (copy : Bytes) (inUse : Option (Nat × Byte))
  | refused (r : JobResult)

/-- The result of a job whose take is refused (R57). -/
def takeRefusal : Status → JobResult
  | .notFound => .notFound
  | _ => .notPermitted

/-- A take of a found key for a use that passes its examination. -/
def State.takeFound (s : State) (h : Nat) (g : Byte) (copy : Bytes) : Take := .taken (s.charge h g true) copy (some (h, g))

/-- The take at the start of a job. -/
def State.take (s : State) : KeyRef → Take
  | .none => .taken s [] none
  | .record => .taken s (s.store.recordKey.getD []) none
  | .seed => .taken s s.fuses.seedBytes none
  | .attest =>
    match s.keyFound 1 (s.genOf 1) with
    | none => .refused .notFound
    | some e => .taken s e.material (some (1, e.gen))
  | .table h g m u =>
    match s.examine h g m u with
    | some st => .refused (takeRefusal st)
    | none => s.takeFound h g (((s.keyAt h).map (·.material)).getD [])
  | .top m u =>
    match (s.keys.stackOf.get m).getLast? with
    | none => .refused .notFound
    | some top =>
      match s.examine top.rootHandle top.rootGen m u with
      | some st => .refused (takeRefusal st)
      | none => s.takeFound top.rootHandle top.rootGen top.secret

/-! ### New keys (R135, R143, R148) -/

/-- A handle and a label are held for a request. -/
def State.holdKey (s : State) (r : Req) (k : NewKey) : State :=
  s.modKeys fun km => { km with holds := km.holds ++ [⟨r, k.handle, k.label, decide (k.cls = .volatile)⟩] }

/-- The hold on a handle ends. -/
def State.unholdKey (s : State) (h : Nat) : State :=
  s.modKeys fun km => { km with holds := km.holds.filter fun k => !decide (k.handle = h) }

/-- The entry a new key becomes. -/
def State.entryOf (s : State) (k : NewKey) (material pub : Bytes) : KeyEntry :=
  { handle := k.handle, gen := s.genOf k.handle, cls := k.cls, kind := k.kind, usages := k.usages, users := k.users,
    binding := k.binding, label := k.label, limit := k.limit, destroying := false, material := material, pub := pub }

/-- The new entry becomes PRESENT on its held handle, and its request is answered (R136). -/
def State.installKey (s : State) (r : Req) (e : KeyEntry) (depth : Option Nat) : State :=
  let s := (s.unholdKey e.handle).modKeys fun k => { k with table := k.table ++ [e] }
  s.answer r .ok ([BitVec.ofNat 8 e.handle, e.gen] ++ e.pub ++ (match depth with
    | none => []
    | some d => [BitVec.ofNat 8 d]))

end Sys2Proof.Machine
end

