-- ==== Sys2Proof/Machine/P256.lean ====
section
/-! DEFINITION. The P-256 curve, ECDSA and key agreement over it, which the manual names and does not define
(04_the_crypto_engine.md 4.3): the functions of the published standards over exact natural numbers (log entry 20). -/

namespace Sys2Proof.Machine

/-- The field prime. -/
def p256P : Nat := 0xffffffff00000001000000000000000000000000ffffffffffffffffffffffff

/-- The order of the group, n. -/
def p256N : Nat := 0xffffffff00000000ffffffffffffffffbce6faada7179e84f3b9cac2fc632551

/-- The coefficient b; a is -3. -/
def p256B : Nat := 0x5ac635d8aa3a93e7b3ebbd55769886bc651d06b0cc53b0f63bce3c3e27d2604b

/-- A point: none is the point at infinity. -/
abbrev Point := Option (Nat × Nat)

/-- The base point. -/
def p256G : Point :=
  some (0x6b17d1f2e12c4247f8bce6e563a440f277037d812deb33a0f4a13945d898c296,
        0x4fe342e2fe1a7f9b8ee7eb4a7c0f9e162bce33576b315ececbb6406837bf51f5)

/-- Powers modulo `q`; `k` bounds the bits of the exponent. -/
def powMod : Nat → Nat → Nat → Nat → Nat
  | 0, _, _, _ => 1
  | k + 1, q, x, e =>
    let r := powMod k q (x * x % q) (e / 2)
    if e % 2 = 1 then r * x % q else r

/-- The inverse modulo a prime. -/
def invMod (q x : Nat) : Nat := powMod 256 q (x % q) (q - 2)

/-- Whether the coordinates are those of a point on the curve (R60, R61). -/
def onCurve (x y : Nat) : Bool :=
  x < p256P && y < p256P && (y * y) % p256P == (x * x * x + (p256P - 3) * x + p256B) % p256P

/-- The chord or tangent through two points with the given slope. -/
def pointBySlope (l x1 y1 x2 : Nat) : Point :=
  let x3 := (l * l + 2 * p256P - x1 - x2) % p256P
  some (x3, (l * (x1 + p256P - x3) + p256P - y1) % p256P)

/-- Addition of points. -/
def pointAdd : Point → Point → Point
  | none, q => q
  | p, none => p
  | some (x1, y1), some (x2, y2) =>
    if x1 = x2 then
      if (y1 + y2) % p256P = 0 then none
      else pointBySlope ((3 * x1 * x1 + (p256P - 3)) * invMod p256P (2 * y1) % p256P) x1 y1 x2
    else pointBySlope ((y2 + p256P - y1) * invMod p256P (x2 + p256P - x1) % p256P) x1 y1 x2

/-- The multiple of a point; `k` bounds the bits of the scalar. -/
def pointMul : Nat → Nat → Point → Point
  | 0, _, _ => none
  | k + 1, d, q =>
    let r := pointMul k (d / 2) (pointAdd q q)
    if d % 2 = 1 then pointAdd r q else r

/-- A point as 64 bytes, x then y (4.3). -/
def pointBytes : Point → Bytes
  | none => List.replicate 64 0
  | some (x, y) => be 32 x ++ be 32 y

/-- The public key of a private scalar. -/
def publicOf (d : Nat) : Bytes := pointBytes (pointMul 256 d p256G)

/-- The point of a 64-byte public key, if it is on the curve; 64 bytes cannot name the point at infinity (R60). -/
def pointOf (pub : Bytes) : Option (Nat × Nat) :=
  let x := beNat (slice 0 32 pub)
  let y := beNat (slice 32 32 pub)
  if onCurve x y then some (x, y) else none

/-- ECDSA verification of a 64-byte signature over a 32-byte digest (R60). -/
def ecdsaVerify (pub digest sig : Bytes) : Bool :=
  let r := beNat (slice 0 32 sig)
  let s := beNat (slice 32 32 sig)
  let inRange := fun v => decide (1 ≤ v) && decide (v < p256N)
  match pointOf pub with
  | none => false
  | some q =>
    if inRange r && inRange s then
      let w := invMod p256N s
      let u1 := beNat digest * w % p256N
      let u2 := r * w % p256N
      match pointAdd (pointMul 256 u1 p256G) (pointMul 256 u2 (some q)) with
      | none => false
      | some (x, _) => x % p256N == r
    else false

/-- ECDSA signature under scalar `d` with nonce `k`, or none where r or s comes out 0 (R60). -/
def ecdsaSign (d : Nat) (digest : Bytes) (k : Nat) : Option Bytes :=
  match pointMul 256 k p256G with
  | none => none
  | some (x, _) =>
    let r := x % p256N
    let s := invMod p256N k * (beNat digest + r * d) % p256N
    if r = 0 ∨ s = 0 then none else some (be 32 r ++ be 32 s)

/-- The x coordinate of the peer's point multiplied by the scalar, or none where the peer key fails its check (R61). -/
def ecdhShared (d : Nat) (peer : Bytes) : Option Bytes :=
  match pointOf peer with
  | none => none
  | some q =>
    match pointMul 256 d (some q) with
    | none => none
    | some (x, _) => some (be 32 x)

end Sys2Proof.Machine
end

