-- ==== Sys2Proof/Machine/Sha256.lean ====
section
/-! DEFINITION. SHA-256 and HMAC-SHA-256, which the manual names and does not define (04_the_crypto_engine.md 4.3): the
functions of the published standards (log entry 20). Digest contexts are those of R59. -/

namespace Sys2Proof.Machine

/-- A word of the hash. -/
abbrev ShaWord := BitVec 32

/-- The first 64 prime numbers: no number below 312 that is not prime lacks a divisor among the first seven. -/
def shaPrimes : List Nat :=
  (List.range 312).filter fun n => decide (2 ≤ n) && [2, 3, 5, 7, 11, 13, 17].all fun p => decide (n = p) || decide (n % p ≠ 0)

/-- `r` raised by its lower `k` bits as far as its power `e` stays within `n`. -/
def rootFrom (e n : Nat) : Nat → Nat → Nat
  | 0, r => r
  | k + 1, r => rootFrom e n k (if (r + 2 ^ k) ^ e ≤ n then r + 2 ^ k else r)

/-- The first 32 bits after the binary point of the root `e` of a prime. -/
def rootFraction (e p : Nat) : ShaWord := BitVec.ofNat 32 (rootFrom e (p * 2 ^ (32 * e)) 36 0)

/-- The 64 round constants come from the cube roots of the primes. -/
def shaKeys : List ShaWord := shaPrimes.map (rootFraction 3)

/-- The value a hash starts from comes from the square roots of the first eight. -/
def shaSeed : List ShaWord := (shaPrimes.take 8).map (rootFraction 2)

/-- Three rotations of a word, added bit by bit. -/
def twist (i j k : Nat) (x : ShaWord) : ShaWord := x.rotateRight i ^^^ (x.rotateRight j ^^^ x.rotateRight k)

/-- Two rotations and a shift of a word, added bit by bit. -/
def smear (i j k : Nat) (x : ShaWord) : ShaWord := x.rotateRight i ^^^ (x.rotateRight j ^^^ (x >>> k))

/-- One more word of the message schedule, of which `w` holds the words so far, newest first. -/
def scheduleNext (w : List ShaWord) : List ShaWord :=
  (smear 17 19 10 (w.getD 1 0) + smear 7 18 3 (w.getD 14 0) + (w.getD 6 0 + w.getD 15 0)) :: w

/-- The 16 words of a block, most significant byte of each first, newest word first. -/
def blockWords (block : Bytes) : List ShaWord :=
  (List.range 16).reverse.map fun i => BitVec.ofNat 32 (beNat (slice (4 * i) 4 block))

/-- The hash while a block is worked in: the last four words of each of its two sequences, newest first. -/
structure ShaRun where
  near : List ShaWord
  far : List ShaWord

/-- One round, with the sum of its constant and its schedule word: each sequence gains a word and drops its oldest. -/
def ShaRun.round (v : ShaRun) (kw : ShaWord) : ShaRun :=
  let n := fun i => v.near.getD i 0
  let f := fun i => v.far.getD i 0
  let gain := kw + f 3 + twist 6 11 25 (f 0) + (f 2 ^^^ (f 0 &&& (f 1 ^^^ f 2)))
  { near := (gain + twist 2 13 22 (n 0) + ((n 0 &&& n 1) ||| (n 2 &&& (n 0 ||| n 1)))) :: v.near.take 3
    far := (n 3 + gain) :: v.far.take 3 }

/-- One block of 64 bytes. -/
def shaBlock (h : List ShaWord) (block : Bytes) : List ShaWord :=
  let w := (Nat.repeat scheduleNext 48 (blockWords block)).reverse
  let v := (List.zipWith (· + ·) shaKeys w).foldl ShaRun.round ⟨h.take 4, h.drop 4⟩
  List.zipWith (· + ·) h (v.near ++ v.far)

/-- `n` blocks of 64 bytes. -/
def shaBlocks : Nat → List ShaWord → Bytes → List ShaWord
  | 0, h, _ => h
  | n + 1, h, b => shaBlocks n (shaBlock h (b.take 64)) (b.drop 64)

/-- A new computation (R59). -/
def DigestCtx.start : DigestCtx := ⟨shaSeed, 0⟩

/-- A DIGEST job that is not final: the context after more data. The part's chunks that are not the last are 4,096 bytes
(R63), a whole number of blocks. -/
def DigestCtx.update (c : DigestCtx) (data : Bytes) : DigestCtx :=
  ⟨shaBlocks (data.length / 64) c.hash data, c.count + data.length⟩

/-- The padding of a message of `total` bytes. -/
def shaPad (total : Nat) : Bytes :=
  (0x80#8 : Byte) :: (List.replicate ((119 - total % 64) % 64) 0 ++ be 8 (8 * total))

/-- A final DIGEST job: the 32-byte digest of every byte consumed (R59). -/
def DigestCtx.finish (c : DigestCtx) (data : Bytes) : Bytes :=
  let total := c.count + data.length
  let b := data ++ shaPad total
  (shaBlocks (b.length / 64) c.hash b).flatMap fun w => be 4 w.toNat

/-- SHA-256 of a byte string. -/
def sha256 (data : Bytes) : Bytes := DigestCtx.start.finish data

/-- HMAC-SHA-256 under `key`. -/
def hmac (key data : Bytes) : Bytes :=
  let k := padTo 64 0 (if key.length ≤ 64 then key else sha256 key)
  sha256 (k.map (· ^^^ 0x5c#8) ++ sha256 (k.map (· ^^^ 0x36#8) ++ data))

end Sys2Proof.Machine
end

