-- ==== Sys2Proof/Machine/Engine.lean ====
section
/-! DEFINITION. The Crypto Engine (04_the_crypto_engine.md): its queue, the start and the end of a job, withdrawal. -/

namespace Sys2Proof.Machine

/-- A new job of a source. -/
def Job.mk' (source : Source) (op : CryptoOp) (key : KeyRef) (for_ : JobFor) : Job :=
  { source := source, op := op, key := key, for_ := for_, started := false, orphaned := false, copy := [], inUse := none }

/-! ### Queue (R55, R56) -/

/-- The job that has waited longest for a source whose place is empty is submitted (R55). -/
def Engine.refill (e : Engine) (src : Source) : Engine :=
  if e.queue.any fun j => decide (j.source = src) then e
  else
    match e.waiting.find? fun j => decide (j.source = src) with
    | none => e
    | some j => { queue := e.queue ++ [j], waiting := e.waiting.erase j }

/-- The head ends: its place is free for its source, its result is handed back, and the next job will start (R56). -/
def State.popJob (s : State) (j : Job) (r : JobResult) : State :=
  (({ s with engine := ({ s.engine with queue := s.engine.queue.tail } : Engine).refill j.source }).post
    (.jobEnded j r)).post .engineNext

/-- The job at the head starts, with its take (R56, R57). -/
def State.startHead (s : State) : State :=
  match s.engine.queue with
  | [] => s
  | j :: rest =>
    if j.started then s
    else
      match s.take j.key with
      | .refused r => s.popJob j r
      | .taken t copy inUse =>
        { t with engine := { t.engine with queue := { j with started := true, copy := copy, inUse := inUse } :: rest } }

/-- A block submits a job, or keeps it while its source has a job in the queue (R55, R56). -/
def State.submitJob (s : State) (j : Job) : State :=
  if s.engine.queue.any fun k => decide (k.source = j.source) then
    { s with engine := { s.engine with waiting := s.engine.waiting ++ [j] } }
  else
    let s' := { s with engine := { s.engine with queue := s.engine.queue ++ [j] } }
    if s.engine.queue.isEmpty then s'.startHead else s'

/-- A source withdraws its jobs that match and have not started, in the queue or waiting (R56, R64, R66). -/
def State.withdraw (s : State) (src : Source) (p : Job → Bool) : State :=
  let gone := (fun (j : Job) => decide (j.source = src) && !j.started && p j)
  { s with engine := ({ queue := s.engine.queue.filter fun j => !gone j
                        waiting := s.engine.waiting.filter fun j => !gone j } : Engine).refill src }

/-- A master reset reaches the jobs of its port source: withdrawn if not started, orphaned if running (R66). -/
def State.orphanPort (s : State) (m : Master) : State :=
  let s := s.withdraw (.port m) (fun _ => true)
  { s with engine := { s.engine with queue := s.engine.queue.map fun j =>
    if j.source = (.port m) then { j with orphaned := true } else j } }

/-! ### Results (R59 to R62) -/

/-- A private scalar in 1..n-1 from 32 random bytes (R60, R61, log entry 8). -/
def scalarOf (b : Bytes) : Nat := beNat b % (p256N - 1) + 1

/-- The digest a message stands for (R60). -/
def Message.hash : Message → Bytes
  | .digest d => d
  | .text b => sha256 b

/-- A signature by fresh nonces, drawn again while r or s comes out 0 (R60); should every draw the model makes do so, the
signature is a free value (log entry 8). -/
def State.signWith (s : State) (d : Nat) (digest : Bytes) : Nat → Bytes × State
  | 0 => (s.random 64, s.drawn 64)
  | n + 1 =>
    match ecdsaSign d digest (scalarOf (s.random 32)) with
    | some sig => (sig, s.drawn 32)
    | none => (s.drawn 32).signWith d digest n

/-- DERIVE-SCALAR: the first counter whose output lies in 1..n-1 (R62). -/
def deriveScalar (key label : Bytes) : Nat → Nat → Nat
  | 0, _ => Config.scalarAfterCounter (key ++ label)
  | n + 1, c =>
    let v := beNat (hmac key (label ++ [BitVec.ofNat 8 c]))
    if 1 ≤ v ∧ v < p256N then v else deriveScalar key label n (c + 1)

/-- A scalar with its public key, as the two byte strings. -/
def keyPairOf (d : Nat) : JobResult := .keyPair (be 32 d) (publicOf d)

/-- The result of a job, from its inputs and its copy of the key (R58 to R62). -/
def State.compute (s : State) (copy : Bytes) : CryptoOp → JobResult × State
  | .digest ctx data final =>
    let c := ctx.getD .start
    (if final then .digest (c.finish data) else .context (c.update data), s)
  | .verify pub msg sig => (.verdict (ecdsaVerify pub msg.hash sig), s)
  | .sign msg =>
    let (sig, s) := s.signWith (beNat copy) msg.hash 8
    (.signature sig, s)
  | .keygen => (keyPairOf (scalarOf (s.random 32)), s.drawn 32)
  | .agree peer =>
    match ecdhShared (beNat copy) peer with
    | some x => (.secret x, s)
    | none => (.badPeer, s)
  | .mac data short => (.mac (if short then (hmac copy data).take 16 else hmac copy data), s)
  | .derive label => (.secret (hmac copy label), s)
  | .deriveScalar label => (keyPairOf (deriveScalar copy label 256 0), s)

/-- The running job ends: the engine discards its copy, tells the Key Manager, and hands the result back (R56, R58). -/
def State.endJob (s : State) : State :=
  match s.engine.queue with
  | [] => s
  | j :: _ =>
    if j.started then
      let (r, s) := s.compute j.copy j.op
      let s := match j.inUse with
        | none => s
        | some (h, g) => s.releaseKey h g
      s.popJob j r
    else s

end Sys2Proof.Machine
end

