-- ==== Sys2Proof/Machine/Flash.lean ====
section
/-! DEFINITION. The Flash Controller (01_the_flash_array_and_its_controller.md): arrivals, service order, programs, erase
batches, retirement, part reset. It moves no location itself: the commands that end a physical operation do (Dispatch's
completions), and hand the outcome to it. -/

namespace Sys2Proof.Machine

/-- Array activity (1.1). -/
inductive Activity
  | free | reading | programming | erasing
deriving DecidableEq, Repr

/-- The array's activity at this moment (1.1). -/
def FlashCtl.activity (c : FlashCtl) : Activity :=
  if c.batch.any (fun b => decide (b.state = .running)) then .erasing
  else if c.prog.any (fun p => !p.suspended) then .programming
  else if c.reads.isEmpty then .free
  else .reading

def ReadOp.isBoot (r : ReadOp) : Bool :=
  match r.by_ with
  | .boot _ => true
  | .internal _ => false

def ProgOp.run (p : ProgOp) : Run := ⟨p.addr, p.data.length⟩

/-- The run touches a sector with an erase outstanding (R6). -/
def FlashCtl.held (c : FlashCtl) (r : Run) : Bool := c.outstanding.any fun o => r.touches o.sector

/-- The run touches a retired sector (R6). -/
def FlashCtl.touchesRetired (c : FlashCtl) (r : Run) : Bool := c.retired.any fun x => r.touches x

/-- The batch pauses and its suspend count rises (R10). -/
def FlashCtl.suspendBatch (c : FlashCtl) : FlashCtl :=
  { c with batch := c.batch.map fun b => { b with state := .suspended, suspends := b.suspends + 1 } }

/-- A RUNNING batch has a suspension left (R10, R11). -/
def FlashCtl.budget (c : FlashCtl) : Bool := c.batch.any fun b => decide (b.suspends < 256)

/-- A read is granted. -/
def FlashCtl.grant (c : FlashCtl) (r : ReadOp) : FlashCtl := { c with reads := c.reads ++ [r] }

/-- A program starts with active time 0. -/
def FlashCtl.start (c : FlashCtl) (p : ProgOp) : FlashCtl := { c with prog := some ⟨p, 0, false⟩ }

/-- An operation joins the wait list. -/
def FlashCtl.defer (c : FlashCtl) (w : Waiting) : FlashCtl := { c with wait := c.wait ++ [w] }

/-- The active program is suspended (R13). -/
def FlashCtl.suspendProg (c : FlashCtl) : FlashCtl :=
  { c with prog := c.prog.map fun p => { p with suspended := true } }

/-- An arriving read (R6, R13). -/
def FlashCtl.arriveRead (c : FlashCtl) (r : ReadOp) : FlashCtl :=
  if c.held r.run then c.defer (.read r)
  else
    match c.activity with
    | .free => c.grant r
    | .reading => if c.prog.isSome && !r.isBoot then c.defer (.read r) else c.grant r
    | .programming => if r.isBoot then c.suspendProg.grant r else c.defer (.read r)
    | .erasing => if c.budget then c.suspendBatch.grant r else c.defer (.read r)

/-- An arriving program that touches no retired sector (R6, R13). -/
def FlashCtl.arriveProgram (c : FlashCtl) (p : ProgOp) : FlashCtl :=
  if c.held p.run then c.defer (.program p)
  else
    match c.activity with
    | .free => c.start p
    | .reading => c.defer (.program p)
    | .programming => c.defer (.program p)
    | .erasing => if c.budget then c.suspendBatch.start p else c.defer (.program p)

/-- A read is submitted. -/
def State.submitRead (s : State) (r : ReadOp) : State := s.modCtl fun c => c.arriveRead r

/-- A program is submitted; one that touches a retired sector is refused at once (R6). -/
def State.submitProgram (s : State) (p : ProgOp) : State :=
  if s.ctl.touchesRetired p.run then s.post (.programEnded p.requester .retired)
  else s.modCtl fun c => c.arriveProgram p

/-! ### Service order (R12) -/

/-- The waiting reads that may run, boot reads first, each kind in order of arrival. -/
def FlashCtl.runnableReads (c : FlashCtl) : List ReadOp :=
  let rs := c.wait.filterMap fun
    | .read r => if c.held r.run then none else some r
    | .program _ => none
  rs.filter (·.isBoot) ++ rs.filter fun r => !r.isBoot

/-- The program that has waited longest among those that may run. -/
def FlashCtl.runnableProgram (c : FlashCtl) : Option ProgOp :=
  c.wait.findSome? fun
    | .read _ => none
    | .program p => if c.held p.run then none else some p

/-- Step 1: every waiting read that may run is granted. -/
def FlashCtl.grantWaiting (c : FlashCtl) : FlashCtl :=
  { c with
    reads := c.reads ++ c.runnableReads
    wait := c.wait.filter fun
      | .read r => c.held r.run
      | .program _ => true }

/-- R8: the batch starts. -/
def FlashCtl.startBatch (c : FlashCtl) : FlashCtl :=
  { c with batch := c.batch.map fun b => { b with state := .running, suspends := 0, active := 0 } }

/-- R10: the batch resumes. -/
def FlashCtl.resumeBatch (c : FlashCtl) : FlashCtl :=
  { c with batch := c.batch.map fun b => { b with state := .running } }

/-- R12 at time `now`; it does nothing while the array is not FREE. -/
def FlashCtl.arbitrate (c : FlashCtl) (now : Nat) : FlashCtl :=
  if c.activity ≠ .free then c
  else if c.runnableReads ≠ [] then c.grantWaiting
  else
    match c.runnableProgram with
    | some p => FlashCtl.start { c with wait := c.wait.erase (.program p) } p
    | none =>
      match c.batch with
      | none => c
      | some b =>
        match b.state with
        | .suspended => c.resumeBatch
        | .gathering => if b.closes ≤ now then c.startBatch else c
        | .running => c

/-- R12. -/
def State.arbitrate (s : State) : State := s.modCtl fun c => c.arbitrate s.clock

/-! ### Ends of reads and programs -/

/-- A read ends: with the last boot read in progress a suspended program resumes (R13), and a FREE array is arbitrated. -/
def State.endRead (s : State) (r : ReadOp) : State :=
  (s.modCtl fun c =>
    let c := { c with reads := c.reads.erase r }
    if c.reads.any (·.isBoot) then c else { c with prog := c.prog.map fun p => { p with suspended := false } }).arbitrate

/-- A boot read ends or is withdrawn (R16, R18). -/
def State.dropBootRead (s : State) (m : Master) : State :=
  match s.ctl.reads.find? fun r => decide (r.by_ = .boot m) with
  | some r => s.endRead r
  | none =>
    s.modCtl fun c => { c with wait := c.wait.filter fun
      | .read r => !decide (r.by_ = .boot m)
      | .program _ => true }

/-- The active program completes, and the requester is told (R3). -/
def State.endProgram (s : State) (ok : Bool) : State :=
  match s.ctl.prog with
  | none => s
  | some p =>
    let s := (s.modCtl fun c => { c with prog := none }).arbitrate
    s.post (.programEnded p.op.requester (if ok then .ok else .fault))

/-! ### Erase requests and batches -/

/-- Where a newly outstanding sector goes (R7). -/
def FlashCtl.place (c : FlashCtl) (now : Nat) (x : Sector) : FlashCtl :=
  match c.batch with
  | none =>
    { c with batch := some { state := .gathering, closes := now + 200, members := [x], decided := [], suspends := 0,
                             active := 0 } }
  | some b =>
    if b.state = .gathering ∧ b.members.length < 16 then { c with batch := some { b with members := b.members ++ [x] } }
    else { c with next := c.next ++ [x] }

/-- One sector of an erase request (R6, R7). -/
def State.requestErase1 (s : State) (f : EraseFor) (x : Sector) : State :=
  if x ∈ s.ctl.retired then s.post (.eraseEnded f x false)
  else if s.ctl.outstanding.any fun o => decide (o.sector = x) then
    s.modCtl fun c => { c with outstanding := c.outstanding.map fun o =>
      if o.sector = x then { o with attached := o.attached ++ [f] } else o }
  else
    s.modCtl fun c => FlashCtl.place { c with outstanding := c.outstanding ++ [⟨x, [f], 0⟩] } s.clock x

/-- An erase request, sector by sector in the order named (R7). -/
def State.requestErase (s : State) (f : EraseFor) (xs : List Sector) : State :=
  xs.foldl (fun s x => s.requestErase1 f x) s

/-- Reports a sector's result to every request attached to it, and ends its erase outstanding (R14, R15). -/
def State.reportErase (s : State) (x : Sector) (ok : Bool) : State :=
  let fs := (s.ctl.outstanding.filter fun o => decide (o.sector = x)).flatMap fun o => o.attached
  let s := s.modCtl fun c => { c with outstanding := c.outstanding.filter fun o => !decide (o.sector = x) }
  fs.foldl (fun s f => s.post (.eraseEnded f x ok)) s

/-- The waiting programs that touch a sector just retired are refused with RETIRED (R6). DESIGN CHOICE (log entry 43): at once as
the batch ends, before the array is arbitrated and the reads that wait beside them are granted (R12). -/
def State.refuseHeld (s : State) (x : Sector) : State :=
  let hit : Waiting → Bool := fun
    | .read _ => false
    | .program p => p.run.touches x
  let ps := s.ctl.wait.filterMap fun
    | .read _ => none
    | .program p => if p.run.touches x then some p.requester else none
  let s := s.modCtl fun c => { c with wait := c.wait.filter fun w => !hit w }
  ps.foldl (fun s r => s.post (.programEnded r .retired)) s

/-- A sector whose erase failed in the batch that ends (R15): its first failure awaits a retry, its second retires it. -/
def State.eraseFailed (s : State) (x : Sector) : State :=
  if s.ctl.outstanding.any fun o => decide (o.sector = x) && decide (o.failures = 0) then
    s.modCtl fun c => { c with outstanding := c.outstanding.map fun o =>
      if o.sector = x then { o with failures := 1 } else o }
  else
    (((s.modCtl fun c => { c with retired := c.retired ++ [x] }).post (.sectorRetired x)).reportErase x false).refuseHeld x

/-- The sectors the failed members put at the head of the next-batch list, in order of failure (R15). -/
def FlashCtl.retries (c : FlashCtl) (decided : List (Sector × Bool)) : List Sector :=
  (decided.filter fun d => !d.2 && c.outstanding.any fun o => decide (o.sector = d.1) && decide (o.failures = 0)).map (·.1)

/-- R14: the batch ends. -/
def State.endBatch (s : State) (decided : List (Sector × Bool)) : State :=
  let retry := s.ctl.retries decided
  let s := decided.foldl (fun s d => if d.2 then s.reportErase d.1 true else s.eraseFailed d.1) s
  let s := s.modCtl fun c =>
    let next := retry ++ c.next
    { c with
      batch := if next.isEmpty then none else
        some { state := .gathering, closes := s.clock + 200, members := next.take 16, decided := [], suspends := 0, active := 0 }
      next := next.drop 16 }
  s.arbitrate

/-- The current sector's outcome is decided (R9). -/
def State.decideSector (s : State) (erased : Bool) : State :=
  match s.ctl.batch with
  | none => s
  | some b =>
    match b.members with
    | [] => s
    | x :: rest =>
      let decided := b.decided ++ [(x, erased)]
      if rest.isEmpty then s.endBatch decided
      else s.modCtl fun c => { c with batch := some { b with members := rest, decided := decided, active := 0 } }

/-- The erase time limit of a sector, in microseconds (R9). -/
def eraseLimit (x : Sector) : Nat :=
  match x.area with
  | .image => 2000000
  | .store => 400000

/-- The page program time limit, in microseconds (R3). -/
def programLimit : Nat := 2000

/-- The current sector and active time of a RUNNING batch. -/
def FlashCtl.erasing (c : FlashCtl) : Option (Sector × Nat) :=
  match c.batch with
  | none => none
  | some b => if b.state = .running then b.members.head?.map fun x => (x, b.active) else none

/-- The sector under erase, the batch RUNNING or SUSPENDED (R17). -/
def FlashCtl.underErase (c : FlashCtl) : Option Sector :=
  match c.batch with
  | none => none
  | some b => if b.state = .gathering then none else b.members.head?

/-- R17: the array after the abandoned program and erase, with free bits where the manual leaves them indeterminate
(log entry 9). The controller returns to its initial state. -/
def State.flashReset (s : State) : State :=
  let flash1 := match s.ctl.prog with
    | none => s.flash
    | some p => memProgram s.flash p.op.addr p.op.data (s.freeBytes 256)
  let flash2 := match s.ctl.underErase with
    | none => flash1
    | some x => memErase x.base x.size (fun off => Config.freeByte (s.free + 256 + off)) flash1
  { s.usedFree (256 + 65536) with flash := flash2, ctl := .reset }

end Sys2Proof.Machine
end

