-- ==== Sys2Proof/Machine/Records.lean ====
section
/-! DEFINITION. The bytes of the Record Store: sector headers (R19), record headers, records and tags (R20 to R22), and the
payload of each record type (R23, R31, R36, R68, R101, R111, R117, R134, R162, R164, R176). Byte positions are the model's
choice where the manual gives none (log entries 6 and 7). -/

namespace Sys2Proof.Machine

/-! ### Sector headers (R19) -/

def secErased : Byte := 0xFF#8
def secOpen : Byte := 0xFE#8
def secFull : Byte := 0xFC#8
def secReclaiming : Byte := 0xF8#8

/-- A 4-byte field, blank when it reads erased. -/
def blankable (b : Bytes) : Option Nat := if b = List.replicate 4 erasedByte then none else some (leNat b)

/-- A sector header of 16 bytes. -/
def Header.ofBytes (b : Bytes) : Header :=
  let st := byteAt 0 b
  { state :=
      if st = secErased then some .erased
      else if st = secOpen then some .open
      else if st = secFull then some .full
      else if st = secReclaiming then some .reclaiming
      else none
    count := blankable (slice 4 4 b)
    seq := blankable (slice 8 4 b) }

/-- The program that makes a sector OPEN with its sequence; it leaves the erase count as it is (R19, R25). -/
def openHeader (seq : Nat) : Bytes := [secOpen, 0xFF, 0xFF, 0xFF] ++ List.replicate 4 0xFF ++ le 4 seq

/-! ### Record types (R23) -/

def RecType.code : RecType → Byte
  | .lifecycle => 1 | .epoch => 2 | .settingsFactory => 3 | .settingsOwner => 4 | .slot => 5 | .bootfail => 6 | .key => 7
  | .cred => 8 | .journalCommit => 9 | .journalWipe => 10 | .retired => 11

def RecType.all : List RecType :=
  [.lifecycle, .epoch, .settingsFactory, .settingsOwner, .slot, .bootfail, .key, .cred, .journalCommit, .journalWipe, .retired]

def RecType.ofCode (b : Byte) : Option RecType := RecType.all.find? fun t => decide (t.code = b)

/-! ### Records (R20, R21) -/

def recErased : Byte := 0xFF#8
def recWriting : Byte := 0xFE#8
def recValid : Byte := 0xFC#8
def recSuperseded : Byte := 0xF8#8

/-- `n` rounded up to a whole number of 16-byte units. -/
def roundUnits (n : Nat) : Nat := (n + 15) / 16 * 16

/-- The size of a record with a payload of `n` bytes (R20). -/
def recordSize (n : Nat) : Nat := 32 + roundUnits n

/-- A record header (R20). -/
def recordHeader (t : RecType) (id seq len : Nat) (state : Byte) : Bytes :=
  [t.code, state] ++ le 2 id ++ le 4 seq ++ le 2 len ++ List.replicate 6 0xFF

/-- The bytes a tag covers, in the order of R22. -/
def tagInput (t : RecType) (id seq : Nat) (payload : Bytes) : Bytes :=
  [t.code] ++ le 2 id ++ le 4 seq ++ le 2 payload.length ++ payload

/-- The payload with its padding (R20). -/
def padded (payload : Bytes) : Bytes := padTo (roundUnits payload.length) 0xFF payload

/-- A run of bytes cut at page boundaries, as programs page by page (R3, R24). -/
def pagesOf : Nat → Nat → Bytes → List (Nat × Bytes)
  | 0, _, _ => []
  | n + 1, addr, b =>
    if b.isEmpty then []
    else
      let k := 256 - addr % 256
      (addr, b.take k) :: pagesOf n (addr + k) (b.drop k)

/-- What begins at an offset of a sector (R34). -/
inductive Parsed
  | none
  | malformed
  | record (f : Found)

/-- Reads the record at an offset from the bytes there (R34); a payload over 512 bytes or a record past the sector's end is
malformed. -/
def parseRecord (sector offset : Nat) (b : Bytes) : Parsed :=
  if offset + 16 > 4096 then .none
  else
    let st := byteAt 1 b
    if st = recErased then .none
    else
      let state := if st = recWriting then some RecState.writing
        else if st = recValid then some RecState.valid
        else if st = recSuperseded then some RecState.superseded
        else Option.none
      let len := leNat (slice 8 2 b)
      match state, RecType.ofCode (byteAt 0 b) with
      | some state, some t =>
        if len > 512 ∨ offset + recordSize len > 4096 then .malformed
        else .record
          { type := t, id := leNat (slice 2 2 b), seq := leNat (slice 4 4 b), sector := sector, offset := offset,
            size := recordSize len, state := state, authentic := false, payload := slice 16 len b,
            tag := slice (16 + roundUnits len) 16 b }
      | _, _ => .malformed

/-! ### Payloads -/

/-- A slot's persisted state: the four staging states persist as one (R68). -/
def SlotState.persisted : SlotState → Byte
  | .erasing | .loading | .loaded | .checking => 1
  | .blank => 0 | .ready => 5 | .trial => 6 | .current => 7 | .fallback => 8 | .failed => 9

def Reason.all : List Reason :=
  [.aborted, .interrupted, .signature, .signerAbsent, .signerRevoked, .signerPendingRevoke, .revokeInUse, .wrongTarget, .level,
   .length, .digest, .flash, .damaged, .trialErrors, .trialBoots, .bootFailures, .belowFloor, .revokedLater, .format]

def Reason.ofCode (b : Byte) : Option Reason := Reason.all.find? fun r => decide (r.code = b)

/-- The SLOT record's payload; empty, a removal, for BLANK (R68). -/
def SlotEntry.payload (e : SlotEntry) : Bytes :=
  if e.state = .blank then []
  else [e.state.persisted, detailCode e.reason, bit e.tryMark, BitVec.ofNat 8 e.trialBoots, 0, 0, 0, 0] ++
    (match e.manifest with
     | some m => padTo 176 0xFF m
     | none => List.replicate 176 0xFF)

/-- The entry a SLOT record gives at mount (R67, R68). DESIGN CHOICE (log entry 44): "staging" comes back as LOADING until the
fix-ups fail it (R82), so a commit replay's marking takes such a slot of a mask signer first (R119, R126). -/
def SlotEntry.ofPayload (b : Bytes) : SlotEntry :=
  let st : SlotState :=
    match (byteAt 0 b).toNat with
    | 1 => .loading | 5 => .ready | 6 => .trial | 7 => .current | 8 => .fallback | 9 => .failed | _ => .blank
  if b = [] ∨ st = .blank then .blank
  else
    { SlotEntry.blank with
      state := st
      reason := if st = .failed then Reason.ofCode (byteAt 1 b) else none
      tryMark := decide (byteAt 2 b = 1)
      trialBoots := (byteAt 3 b).toNat
      manifest := if byteAt 8 b = 0xFF then none else some (slice 8 176 b) }

/-- BOOTFAIL: the count in 4 bytes; a count of 0 is a removal (R101). -/
def bootFailPayload (n : Nat) : Bytes := if n = 0 then [] else le 4 n

def epochPayload (n : Nat) : Bytes := le 4 n

/-- LIFECYCLE: UNOWNED or OWNED (R164). -/
def lifecyclePayload (l : Lifecycle) : Bytes := [l.code]

def lifecycleOf (b : Bytes) : Option Lifecycle :=
  if b = [2] then some .owned else if b = [1] then some .unowned else none

/-- The KEY record's payload of 150 bytes (R134). -/
def KeyEntry.payload (e : KeyEntry) : Bytes :=
  [e.cls.code ||| (e.kind.code <<< 4), e.usages, e.users, e.gen, e.binding.code ||| (e.binding.indexByte <<< 4)] ++
    e.binding.valueBytes ++ [BitVec.ofNat 8 e.label.length] ++ padTo 16 0 e.label ++ padTo 32 0 e.material ++
    (if e.kind = .secret then List.replicate 64 0xFF else padTo 64 0 e.pub)

/-- The entry a KEY record gives at mount: PRESENT, with no use limit (R134). -/
def KeyEntry.ofPayload (handle : Nat) (b : Bytes) : KeyEntry :=
  let kind := (KeyKind.ofCode (byteAt 0 b >>> 4)).getD .secret
  { handle := handle, gen := byteAt 3 b, cls := (KeyClass.ofCode (byteAt 0 b &&& 0x0F)).getD .owner, kind := kind
    usages := byteAt 1 b, users := byteAt 2 b
    binding := (Binding.ofCode (byteAt 4 b &&& 0x0F) (byteAt 4 b >>> 4) (slice 5 32 b)).getD .none
    label := slice 38 (byteAt 37 b).toNat b, limit := none, destroying := false, material := slice 54 32 b
    pub := if kind = .secret then [] else slice 86 64 b }

/-- The CRED record's payload (R162). -/
def CredEntry.payload (e : CredEntry) : Bytes :=
  [e.cls.code ||| (e.value.kindCode <<< 4), e.readers ||| (bit e.grantRequired <<< 7)] ++ le 4 e.serial ++
    [BitVec.ofNat 8 e.failures, BitVec.ofNat 8 e.name.length] ++ e.name ++
    (match e.value with
     | .verifier salt digest => padTo 16 0 salt ++ padTo 32 0 digest
     | .secret v => v)

/-- The entry a CRED record gives at mount, with no lockout (R162). -/
def CredEntry.ofPayload (index : Nat) (b : Bytes) : CredEntry :=
  let n := (byteAt 7 b).toNat
  let v := b.drop (8 + n)
  { index := index, name := slice 8 n b, cls := (CredClass.ofCode (byteAt 0 b &&& 0x0F)).getD .owner
    readers := byteAt 1 b &&& 0x07, grantRequired := hasBit (byteAt 1 b) 7
    value := if byteAt 0 b >>> 4 = 0 then .verifier (slice 0 16 v) (slice 16 32 v) else .secret v
    serial := leNat (slice 2 4 b), failures := (byteAt 6 b).toNat, lockout := none }

/-- The JOURNAL-COMMIT payload (R117). -/
def JournalCommit.payload (j : JournalCommit) : Bytes :=
  [BitVec.ofNat 8 j.master.idx, BitVec.ofNat 8 j.slot.idx, BitVec.ofNat 8 j.level, j.revoke.setWidth 8] ++
    padTo 32 0 j.bodyDigest

def JournalCommit.ofPayload (b : Bytes) : JournalCommit :=
  { master := (Master.ofIdx (byteAt 0 b).toNat).getD .app, slot := (SlotNo.ofIdx (byteAt 1 b).toNat).getD .s0
    level := (byteAt 2 b).toNat, revoke := (byteAt 3 b).setWidth 4, bodyDigest := slice 4 32 b }

/-- The JOURNAL-WIPE payload: the cause (R176). -/
def WipeCause.payload : WipeCause → Bytes
  | .request => [0]
  | .button => [1]

def WipeCause.ofPayload (b : Bytes) : WipeCause := if b = [1] then .button else .request

/-- The RETIRED payload: area and index of each retired sector, in order of retirement (R31). -/
def retiredPayload (l : List Sector) : Bytes :=
  l.flatMap fun c => [match c.area with
    | .image => 0
    | .store => 1, BitVec.ofNat 8 c.index]

def retiredOf : Bytes → List Sector
  | a :: i :: rest => ⟨if a = 0 then .image else .store, i.toNat⟩ :: retiredOf rest
  | _ => []

/-- A record is OWNER-class (R23). -/
def ownerClass (t : RecType) (payload : Bytes) : Bool :=
  match t with
  | .settingsOwner => !payload.isEmpty
  | .key => !payload.isEmpty && decide (KeyClass.ofCode (byteAt 0 payload &&& 0x0F) = some .owner)
  | .cred => !payload.isEmpty && decide (CredClass.ofCode (byteAt 0 payload &&& 0x0F) = some .owner)
  | .lifecycle | .epoch | .settingsFactory | .slot | .bootfail | .journalCommit | .journalWipe | .retired => false

/-! ### Resolution (R34) -/

/-- The record with the highest store sequence. DESIGN CHOICE (log entry 34): of two with one sequence, as a second attempt
under R27 can leave, the one read first. -/
def newest : List Found → Option Found
  | [] => none
  | f :: fs =>
    match newest fs with
    | none => some f
    | some g => if f.seq < g.seq then some g else some f

/-- The authentic VALID records outside the retired sectors. -/
def Mount.live (m : Mount) (retired : List Sector) : List Found :=
  m.found.filter fun f => f.authentic && decide (f.state = .valid) && !retired.contains (storeSector f.sector)

/-- The current record of a type and id. -/
def Mount.current (m : Mount) (retired : List Sector) (t : RecType) (id : Nat) : Option Found :=
  newest ((m.live retired).filter fun f => decide (f.type = t) && decide (f.id = id))

/-- A record is the current one of its type and id. -/
def Mount.isCurrent (m : Mount) (retired : List Sector) (f : Found) : Bool :=
  match m.current retired f.type f.id with
  | some g => decide (g.sector = f.sector) && decide (g.offset = f.offset)
  | none => false

def Found.mirror (f : Found) : MirrorEntry :=
  { type := f.type, id := f.id, sector := f.sector, offset := f.offset, seq := f.seq, size := f.size,
    hasPayload := !f.payload.isEmpty, ownerClass := ownerClass f.type f.payload }

end Sys2Proof.Machine
end

