-- ==== Sys2Proof/Machine/Store.lean ====
section
/-! DEFINITION. The Record Store's write list, sector opening, the reserve (R24 to R27), reclaim and forced reclaim (R28 to
R30), the retired list (R31), and writes submitted again (02_the_record_store.md). Mount is in Mount.lean. -/

namespace Sys2Proof.Machine

/-! ### Sectors (R19) -/

def State.sector (s : State) (k : Nat) : SectorView := s.store.sectors.getD k .unknown

def State.modSector (s : State) (k : Nat) (f : SectorView → SectorView) : State :=
  s.modStore fun st => { st with sectors := st.sectors.modify k f }

/-- The indices of store sectors in a state. -/
def State.sectorsIn (s : State) (x : SecState) : List Nat :=
  (List.range 64).filter fun k => decide ((s.sector k).state = x)

def State.erasedCount (s : State) : Nat := (s.sectorsIn .erased).length

/-- The first index with the least key. -/
def leastBy (key : Nat → Nat) : List Nat → Option Nat
  | [] => none
  | k :: ks =>
    match leastBy key ks with
    | none => some k
    | some b => if key b < key k then some b else some k

/-- The OPEN sector; of two, the one opened last (R25). -/
def State.openSector (s : State) : Option Nat :=
  leastBy (fun k => 4294967296 - ((s.sector k).seq.getD 0)) (s.sectorsIn .open)

/-- The highest sector sequence held by any store sector (R19). -/
def State.highestSeq (s : State) : Nat := s.store.sectors.foldl (fun n v => max n (v.seq.getD 0)) 0

/-- The ERASED sector with the lowest erase count, the lowest index first (R25). -/
def State.nextErased (s : State) : Option Nat := leastBy (fun k => (s.sector k).count.getD 0) (s.sectorsIn .erased)

/-- The bytes left in a sector. -/
def SectorView.room (v : SectorView) : Nat := 4096 - v.free

def State.modMount (s : State) (f : Mount → Mount) : State := s.modStore fun st => { st with mount := st.mount.map f }

/-! ### Programs of the Record Store (R5) -/

/-- Submits a program, or keeps it behind the one outstanding. -/
def State.pushProg (s : State) (addr : Nat) (data : Bytes) (f : ProgFor) : State :=
  let s' := s.modStore fun st => { st with progs := st.progs ++ [⟨addr, data, f⟩] }
  if s.store.progs.isEmpty then s'.submitProgram ⟨.store, addr, data⟩ else s'

/-- The outstanding program has completed: the next is submitted. -/
def State.popProg (s : State) : Option StoreProg × State :=
  match s.store.progs with
  | [] => (none, s)
  | p :: rest =>
    let s := s.modStore fun st => { st with progs := rest }
    (some p, match rest with
      | [] => s
      | q :: _ => s.submitProgram ⟨.store, q.addr, q.data⟩)

/-- Programs a record's state. -/
def State.programState (s : State) (k off : Nat) (b : Byte) (f : ProgFor) : State :=
  s.pushProg (storeAddr k off + 1) [b] f

/-- A record is programmed SUPERSEDED, so mount chooses it no more (R34). Where the program ends FAULT the record counts as VALID
still. -/
def State.noteSuperseded (s : State) (p : StoreProg) : State :=
  if p.data = [recSuperseded] then
    s.modMount fun m => { m with found := m.found.map fun f =>
      if p.addr = (storeAddr f.sector f.offset + 1) then { f with state := .superseded } else f }
  else s

/-- A program into the sector has not ended. -/
def State.progInto (s : State) (k : Nat) : Bool :=
  s.store.progs.any fun p => (Run.mk p.addr p.data.length).touches (storeSector k)

/-- Programs a sector header's state. -/
def State.programHeader (s : State) (k : Nat) (b : Byte) (f : ProgFor) : State := s.pushProg (storeAddr k 0) [b] f

/-- Programs a sector's erase count (R19, R30). -/
def State.programCount (s : State) (k n : Nat) (f : ProgFor) : State := s.pushProg (storeAddr k 0 + 4) (le 4 n) f

/-! ### The end of a reclaim's copying (R29, R30) -/

def State.setReclaim (s : State) (r : Option Reclaim) : State := s.modStore fun st => { st with reclaim := r }

/-- The victim's records are all passed over or copied: its erase is requested, once no program into it is left to end (R29,
R30). -/
def State.eraseVictim (s : State) (r : Reclaim) : State :=
  if s.progInto r.victim then s.setReclaim (some { r with step := .settling })
  else (s.setReclaim (some { r with step := .erasing })).requestErase .reclaim [storeSector r.victim]

/-- A SUPERSEDED program has ended: the erase of a victim that waited for its programs is requested after the last of them
(R30). -/
def State.victimSettled (s : State) : State :=
  match s.store.reclaim with
  | some r => if r.step = .settling then s.eraseVictim r else s
  | none => s

/-! ### Writes (R24 to R27) -/

def State.mirrorAt (s : State) (t : RecType) (id : Nat) : Option MirrorEntry :=
  s.store.mirror.find? fun e => decide (e.type = t) && decide (e.id = id)

/-- The record at a place is the current one. -/
def State.isCurrent (s : State) (f : Found) : Bool :=
  match s.mirrorAt f.type f.id with
  | some e => decide (e.sector = f.sector) && decide (e.offset = f.offset)
  | none => false

def State.setCur (s : State) (a : Option ActiveWrite) : State := s.modStore fun st => { st with cur := a }

/-- The begun write whose owner has not had its result: one that supersedes the record it replaced has been reported (R24). -/
def State.unreported (s : State) : Option ActiveWrite := s.store.cur.filter fun a => !decide (a.step = .supersede)

/-- The begun write ends; its owner has been told its result. -/
def State.endWrite (s : State) (w : Write) (res : WriteResult) : State := (s.setCur none).post (.writeEnded w res)

/-- The begun write ends without its record having become current (R26, R27). -/
def State.failWrite (s : State) (w : Write) (res : WriteResult) : State := (s.post (.writeResult w res)).endWrite w res

/-- The highest store sequence (R24). -/
def maxSeq : Nat := 4294967295

/-- A new sector may be opened for a write of the class (R26). -/
def State.mayOpen (s : State) (critical : Bool) : Bool :=
  if critical then decide (1 ≤ s.erasedCount) else decide (3 ≤ s.erasedCount)

/-- The sector sequence of a sector that is opened now (R19). -/
def State.nextSectorSeq (s : State) : Nat := s.highestSeq + 1

/-- The record is placed at the next free offset of sector `k`, and its header is programmed (R24 step 4, R25). -/
def State.placeAt (s : State) (a : ActiveWrite) (k : Nat) : State :=
  let off := (s.sector k).free
  let s := s.modSector k fun v => { v with free := v.free + recordSize a.write.payload.length }
  (s.setCur (some { a with step := .header, sector := k, offset := off })).pushProg (storeAddr k off)
    (recordHeader a.write.type a.write.id a.seq a.write.payload.length recWriting) .write

/-- The sector that held an abandoned record is programmed FULL, and the write ends FAULT (R27, log entry 29). -/
def State.giveUp (s : State) (a : ActiveWrite) : State :=
  (s.setCur (some { a with step := .giveUp })).programHeader a.sector secFull .write

/-- A new sector is opened for the begun write, `former` to be made FULL after it (R25, R26). -/
def State.openFor (s : State) (a : ActiveWrite) (former : Option Nat) : State :=
  match (if s.mayOpen a.write.critical then s.nextErased else none) with
  | some k =>
    (s.setCur (some { a with step := .opening k s.nextSectorSeq former })).pushProg (storeAddr k 0)
      (openHeader s.nextSectorSeq) .write
  | none =>
    if a.attempt = 1 then s.failWrite a.write .noSpace else s.giveUp a

/-- A place is found for the begun write (R25). -/
def State.placeWrite (s : State) (a : ActiveWrite) : State :=
  match s.openSector with
  | none => s.openFor a none
  | some k =>
    if recordSize a.write.payload.length ≤ (s.sector k).room then s.placeAt a k else s.openFor a (some k)

/-- The next page of the payload is programmed, or the tag after the last (R24 steps 5 and 6). -/
def State.nextPage (s : State) (a : ActiveWrite) : State :=
  match a.pages with
  | p :: rest => (s.setCur (some { a with step := .payload, pages := rest })).pushProg p.1 p.2 .write
  | [] =>
    (s.setCur (some { a with step := .tagProgram })).pushProg
      (storeAddr a.sector a.offset + 16 + roundUnits a.write.payload.length) a.tag .write

/-- The record a begun write has made, as mount would read it. -/
def ActiveWrite.found (a : ActiveWrite) : Found :=
  { type := a.write.type, id := a.write.id, seq := a.seq, sector := a.sector, offset := a.offset,
    size := recordSize a.write.payload.length, state := .valid, authentic := true, payload := a.write.payload, tag := a.tag }

/-- The record is VALID: it becomes current and is reported DURABLE; the record it replaces is then superseded (R24). DESIGN
CHOICE (log entry 55): what its owner does once the write has ended DURABLE, it does at this report. -/
def State.makeCurrent (s : State) (a : ActiveWrite) : State :=
  let w := a.write
  let old := s.mirrorAt w.type w.id
  let e := a.found.mirror
  let s := (s.modMount fun m => { m with found := m.found ++ [a.found] }).modStore fun st => { st with
    mirror := (st.mirror.filter fun x => !(decide (x.type = w.type) && decide (x.id = w.id))) ++ [e] }
  let s := (s.modSector a.sector fun v => { v with valid := v.valid + e.size }).post (.writeResult w .durable)
  match old with
  | none => s.endWrite w .durable
  | some o =>
    (s.setCur (some { a with step := .supersede, old := some o })).programState o.sector o.offset recSuperseded .write

/-- A program of the record faulted: the record is abandoned (R27). -/
def State.abandonWrite (s : State) (a : ActiveWrite) : State :=
  (s.setCur (some { a with step := .abandon })).programState a.sector a.offset recSuperseded .write

/-- The sector `former` counts as FULL in the RAM view. -/
def State.countFull (s : State) (former : Nat) : State := s.modSector former fun v => { v with state := .full }

/-- The record is placed in the sector opened for it; a forced close ends there (R25, R30). -/
def State.afterOpening (s : State) (a : ActiveWrite) (k : Nat) : State :=
  match a.write.for_ with
  | .closeSector _ => s.endWrite a.write .durable
  | _ => s.placeAt a k

/-- The end of a program of the begun write (R24, R25, R27). DESIGN CHOICE (log entry 53): a sector whose OPEN header program ended
FAULT does not hold the sector sequence it was given, which the next one opened takes (R19). DESIGN CHOICE (log entry 59): of the
SUPERSEDED programs only the one of a replaced current record is followed by R28's test. -/
def State.writeProgEnded (s : State) (ok : Bool) : State :=
  match s.store.cur with
  | none => s
  | some a =>
    let pagesAt := fun (a : ActiveWrite) =>
      pagesOf 8 (storeAddr a.sector a.offset + 16) (padded a.write.payload)
    match a.step with
    | .tag => s
    | .opening k n former =>
      if ok then
        let s := (s.modSector k fun v => { v with state := .open, seq := some n, free := 16, valid := 0 }).post .reclaimTest
        match former with
        | some f => (s.setCur (some { a with step := .closing, sector := k, old := none })).programHeader f secFull .write
        | none => s.afterOpening a k
      else
        let s := ((s.modSector k fun v => { v with state := .out }).post .reclaimTest).requestErase .rotation [storeSector k]
        s.openFor a former
    | .closing =>
      -- whatever its result, the former OPEN sector counts as FULL (R25)
      let k := a.sector
      let s := (s.sectorsIn .open).foldl (fun s j => if j = k then s else s.countFull j) s
      s.afterOpening a k
    | .header => if ok then s.nextPage { a with pages := pagesAt a } else s.abandonWrite a
    | .payload => if ok then s.nextPage a else s.abandonWrite a
    | .tagProgram =>
      if ok then (s.setCur (some { a with step := .valid })).programState a.sector a.offset recValid .write
      else s.abandonWrite a
    | .valid => if ok then s.makeCurrent a else s.abandonWrite a
    | .supersede =>
      let s := match a.old with
        | some o => s.modSector o.sector fun v => { v with valid := v.valid - o.size }
        | none => s
      (s.victimSettled.post .reclaimTest).endWrite a.write .durable
    | .abandon => if a.attempt = 1 then s.openFor { a with attempt := 2 } (some a.sector) else s.giveUp a
    | .giveUp => (s.countFull a.sector).failWrite a.write .fault

/-- The record a reclaim copies is no longer current, so its copy is passed over (R29, log entry 13). -/
def State.copyOvertaken (s : State) (w : Write) : Bool :=
  decide (w.for_ = .reclaimCopy) && !(s.store.copyRec.any s.isCurrent)

/-- What a write carries is settled as it is begun, when the writes before it have ended. A failure-count rewrite carries the
entry as it stands, so that it undoes no CRED-PUT that ended before it (R166, R171), and so does a slot's record written once
more (R70). A CRED-PUT that replaces an entry carries the serial one greater than the entry's, and its failure count (R171). -/
def State.atBegin (s : State) (w : Write) : Write :=
  match w.for_ with
  | .credCount index _ =>
    match s.creds.table.find? fun e => decide (e.index = index) with
    | some e => { w with payload := e.payload }
    | none => w
  | .slotAgain i _ => { w with payload := (s.slot i).payload }
  | .credPut r e false =>
    match s.creds.table.find? fun x => decide (x.index = e.index) && decide (x.name = e.name) with
    | some old =>
      let e := { e with serial := old.serial + 1, failures := old.failures }
      { w with payload := e.payload, for_ := .credPut r e false }
    | none => w
  | _ => w

/-- Begins the next write of the write list when none is begun (R24). DESIGN CHOICE (log entry 13): a copy that is passed
over ends as DURABLE with nothing written, so what waits for a later DURABLE write is submitted again at its end (R31). -/
def State.beginNext (s : State) : State :=
  match s.store.cur, s.store.writes with
  | some _, _ => s
  | none, [] => s
  | none, w :: rest =>
    let s := s.modStore fun st => { st with writes := rest }
    let w := s.atBegin w
    let a : ActiveWrite :=
      { write := w, seq := s.store.nextSeq, tag := [], step := .tag, sector := 0, offset := 0, pages := [], attempt := 1,
        old := none }
    match w.for_ with
    | .closeSector k =>
      if (s.sector k).state ≠ .open then s.endWrite w .durable
      else if s.erasedCount = 0 then s.endWrite w .noSpace
      else (s.setCur (some a)).openFor a (some k)
    | _ =>
      if s.copyOvertaken w then s.endWrite w .durable
      else if maxSeq < s.store.nextSeq then s.failWrite w .noSpace
      else
        let s := s.modStore fun st => { st with nextSeq := st.nextSeq + 1, cur := some a }
        s.submitJob (.mk' .store (.mac (tagInput w.type w.id a.seq w.payload) true) .record .writeTag)

/-- The tag of the begun write has been computed (R24 step 3). -/
def State.writeTagged (s : State) (tag : Bytes) : State :=
  match s.store.cur with
  | none => s
  | some a => s.placeWrite { a with tag := tag }

/-- A write joins the write list; in an UNMOUNTED store it ends with NO_SPACE (R24, R33). -/
def State.submitWrite (s : State) (w : Write) : State :=
  if s.store.cond = .unmounted then (s.post (.writeResult w .noSpace)).post (.writeEnded w .noSpace)
  else (s.modStore fun st => { st with writes := st.writes ++ [w] }).beginNext

/-- A removal record (R23: always critical). -/
def State.submitRemoval (s : State) (t : RecType) (id : Nat) (f : WriteFor) : State :=
  s.submitWrite ⟨t, id, [], true, f⟩

/-! ### Contents as their owners hold them (R23, R29) -/

/-- The payload an owner would give for a type and id now; empty when absent. -/
def State.ownerPayload (s : State) (t : RecType) (id : Nat) : Bytes :=
  match t with
  | .lifecycle => if s.creds.lifecycle = .manufacture then [] else lifecyclePayload s.creds.lifecycle
  | .epoch => epochPayload s.store.epoch
  | .settingsFactory => (s.creds.factorySettings.map Settings.bytes).getD []
  | .settingsOwner => (s.creds.ownerSettings.map Settings.bytes).getD []
  | .slot => ((SlotId.ofId id).map fun i => (s.slot i).payload).getD []
  | .bootfail => ((Master.ofIdx id).map fun m => bootFailPayload (s.sup m).bootFailures).getD []
  | .key =>
    match s.keyAt id with
    | some e => if (e.cls = .factory ∨ e.cls = .owner) ∧ e.destroying = false then e.payload else []
    | none => []
  | .cred => ((s.creds.table.find? fun e => decide (e.index = id)).map CredEntry.payload).getD []
  | .journalCommit => (s.image.journal.map JournalCommit.payload).getD []
  | .journalWipe => if s.creds.wiping then s.creds.wipeCause.payload else []
  | .retired => retiredPayload s.store.retiredList

/-! ### Writes submitted again (R31, R70, R97, R134, R166, R173, R178) -/

/-- A write of an owner, neither a copy made by reclaim nor a forced close. -/
def Write.isOwners (w : Write) : Bool :=
  match w.for_ with
  | .reclaimCopy => false
  | .closeSector _ => false
  | _ => true

/-- A failed write is to be submitted again after a later DURABLE write, in the place of an earlier one of the same type and
id (log entry 28). -/
def State.retryLater (s : State) (t : RecType) (id : Nat) (removal : Bool) (f : WriteFor) : State :=
  s.modStore fun st => { st with
    retry := (st.retry.filter fun r => !(decide (r.type = t) && decide (r.id = id))) ++ [⟨t, id, removal, f⟩] }

/-- A failed write of a type and id waits to be submitted again. -/
def State.retryWaits (s : State) (t : RecType) (id : Nat) : Bool :=
  s.store.retry.any fun r => decide (r.type = t) && decide (r.id = id)

/-- A later record of the type and id ended DURABLE, so nothing is left to submit again for it. -/
def State.retryMet (s : State) (w : Write) : State :=
  if w.isOwners = false then s
  else s.modStore fun st => { st with
    retry := st.retry.filter fun r => !(decide (r.type = w.type) && decide (r.id = w.id)) }

/-- A write of a type and id is in the write list or begun. -/
def State.writePending (s : State) (t : RecType) (id : Nat) : Bool :=
  (s.store.writes.any fun w => decide (w.type = t) && decide (w.id = id) && w.isOwners) ||
    s.store.cur.any fun a => decide (a.write.type = t) && decide (a.write.id = id) && a.write.isOwners

/-- Submits again what waits for a DURABLE write (log entry 28). -/
def State.submitRetries (s : State) : State :=
  s.store.retry.foldl (fun s r =>
    if s.writePending r.type r.id then s
    else s.submitWrite ⟨r.type, r.id, if r.removal then [] else s.ownerPayload r.type r.id, true, r.for_⟩) s

/-! ### Reclaim (R28 to R30) -/

/-- A reclaim of `v` has the room R28 asks for. -/
def State.reclaimRoom (s : State) (v : Nat) : Bool :=
  decide (1 ≤ s.erasedCount) || (s.openSector.any fun k => decide ((s.sector v).valid ≤ (s.sector k).room))

/-- Mount has no sector left to resume (R35), so a victim may be chosen by count. -/
def State.resumesDone (s : State) : Bool :=
  match s.store.cond with
  | .unmounted => false
  | .mounting => (s.sectorsIn .reclaiming).isEmpty
  | .mounted => true

/-- The victim of a reclaim that would start now: the first forced victim, else by count (R28, R30). During mount the sectors
that R35 resumes go first (log entry 12). -/
def State.pickVictim (s : State) : Option Nat :=
  match s.store.forced.find? fun k => decide ((s.sector k).state = .full) with
  | some k => if s.reclaimRoom k then some k else none
  | none =>
    if s.resumesDone = true ∧ s.erasedCount ≤ 4 then
      match leastBy (fun k => (s.sector k).valid * 4294967296 + (s.sector k).seq.getD 0) (s.sectorsIn .full) with
      | some k => if (s.sector k).valid ≤ 3536 ∧ s.reclaimRoom k = true then some k else none
      | none => none
    else none

/-- The victim's header is programmed RECLAIMING (R28). -/
def State.startReclaim (s : State) (v : Nat) : State :=
  ((s.modSector v fun x => { x with state := .reclaiming }).setReclaim (some ⟨v, 16, .marking, false⟩)).programHeader v
    secReclaiming .reclaimMark

/-- The conditions of R28 are tested. -/
def State.testReclaim (s : State) : State :=
  if s.store.reclaim.isSome then s
  else
    match s.pickVictim with
    | some v => s.startReclaim v
    | none => s

/-- Named sectors that have become ERASED or retired are struck off; the forced reclaim is complete when none is left
(R30). -/
def State.checkNamed (s : State) : State :=
  match s.store.named with
  | none => s
  | some ks =>
    let left := ks.filter fun k => !(decide ((s.sector k).state = .erased) || decide (storeSector k ∈ s.ctl.retired))
    if left.isEmpty then (s.modStore fun st => { st with named := none }).post .forcedDone
    else s.modStore fun st => { st with named := some left }

/-- The reclaim reads the record at its offset (R29). -/
def State.readVictim (s : State) (r : Reclaim) : State :=
  (s.setReclaim (some { r with step := .reading })).submitRead
    ⟨.internal .store, ⟨storeAddr r.victim r.offset, min 544 (4096 - r.offset)⟩⟩

/-- No record header can be read at the offset. DESIGN CHOICE (log entry 41): where the victim still holds current records, which
a header that cannot be read has hidden, the reclaim goes on at the lowest of them; else the victim is erased (R29). -/
def State.reclaimRest (s : State) (r : Reclaim) : State :=
  match leastBy id ((s.store.mirror.filter fun e => decide (e.sector = r.victim)).map (·.offset)) with
  | some off => s.readVictim { r with offset := off }
  | none => s.eraseVictim r

/-- The reclaim takes its next record (R29). -/
def State.reclaimRead (s : State) (r : Reclaim) : State :=
  if 4096 < r.offset + 32 then s.reclaimRest r else s.readVictim r

/-- The copy of a record is submitted (R29). -/
def State.submitCopy (s : State) (r : Reclaim) (f : Found) (payload : Bytes) : State :=
  (s.setReclaim (some { r with step := .copying })).submitWrite ⟨f.type, f.id, payload, true, .reclaimCopy⟩

/-- During mount, the id of a record whose tag does not match is resolved again, among the authentic records that are VALID still
(R29, R34). DESIGN CHOICE (log entry 41): an owner that has its contents already keeps what it was handed. -/
def State.resolveAgain (s : State) (f : Found) : State :=
  let same : Found → Bool := fun g => decide (g.type = f.type) && decide (g.id = f.id)
  let s := s.modMount fun m => { m with found := m.found.map fun g =>
    if g.sector = f.sector ∧ g.offset = f.offset then { g with authentic := false } else g }
  let next := (s.store.mount.bind fun m => m.current s.store.retiredList f.type f.id).toList
  let s := (s.modSector f.sector fun v => { v with valid := v.valid - f.size }).modStore fun st => { st with
    mirror := (st.mirror.filter fun e => !(decide (e.type = f.type) && decide (e.id = f.id))) ++ next.map Found.mirror }
  let s := s.modMount fun m => { m with resolved := (m.resolved.filter fun g => !same g) ++ next }
  next.foldl (fun s g => s.modSector g.sector fun v => { v with valid := v.valid + g.size }) s

/-- A current record of the victim does not have its tag (R29, R37): outside mount its owner gives the contents to copy; during
mount it is superseded, and its id resolved again. -/
def State.originalBad (s : State) (r : Reclaim) (f : Found) : State :=
  let s := s.modStore fun st => { st with integrity := st.integrity + 1, copyRec := some f }
  if s.store.cond = .mounting then
    ((s.resolveAgain f).programState f.sector f.offset recSuperseded .mount).reclaimRead { r with offset := f.offset + f.size }
  else s.submitCopy r f (s.ownerPayload f.type f.id)

/-- A current record, of which nothing but its place is known to be right. -/
def MirrorEntry.unread (e : MirrorEntry) : Found :=
  { type := e.type, id := e.id, seq := e.seq, sector := e.sector, offset := e.offset, size := e.size, state := .valid,
    authentic := false, payload := [], tag := [] }

/-- The reclaim's read has ended (R29). DESIGN CHOICE (log entry 41): a current record whose header no longer says so is treated as
one whose tag does not match. -/
def State.reclaimReadEnded (s : State) (data : Bytes) : State :=
  match s.store.reclaim with
  | none => s
  | some r =>
    match s.store.mirror.find? fun e => decide (e.sector = r.victim) && decide (e.offset = r.offset),
      parseRecord r.victim r.offset data with
    | some e, .record f =>
      if e.type = f.type ∧ e.id = f.id then
        ((s.setReclaim (some { r with step := .checking })).modStore fun st => { st with copyRec := some f }).submitJob
          (.mk' .store (.mac (tagInput f.type f.id f.seq f.payload) true) .record .reclaimTag)
      else s.originalBad r e.unread
    | some e, _ => s.originalBad r e.unread
    | none, .record f => s.reclaimRead { r with offset := r.offset + f.size }
    | none, _ => s.reclaimRest r

/-- The tag of the record to be copied has been computed (R29, R37). -/
def State.reclaimTagged (s : State) (tag : Bytes) : State :=
  match s.store.reclaim, s.store.copyRec with
  | some r, some f => if tag = f.tag then s.submitCopy r f f.payload else s.originalBad r f
  | _, _ => s

/-- A reclaim is abandoned: the victim counts as FULL; a named one stays among the forced victims (R29, R30). -/
def State.abandonReclaim (s : State) (r : Reclaim) : State :=
  let s := (s.countFull r.victim).setReclaim none
  let named := s.store.named.any fun ks => ks.contains r.victim
  let s := if named && !s.store.forced.contains r.victim then
      s.modStore fun st => { st with forced := st.forced ++ [r.victim] }
    else s
  s.post .reclaimTest

/-- The copy has ended (R29). -/
def State.copyEnded (s : State) (res : WriteResult) : State :=
  match s.store.reclaim, s.store.copyRec with
  | some r, some f =>
    match res with
    | .durable => s.reclaimRead { r with offset := r.offset + f.size }
    | .fault => s.reclaimRead r
    | .noSpace =>
      if s.ctl.outstanding.any fun o => decide (o.sector.area = .store) then
        s.setReclaim (some { r with step := .waitErased })
      else s.abandonReclaim r
  | _, _ => s

/-- A sector has become ERASED with its erase count `n`: what waited for one goes on (R25, R29, R30). -/
def State.gainErased (s : State) (k n : Nat) : State :=
  let s := (s.modSector k fun _ => ⟨.erased, some n, none, 16, 0⟩).checkNamed
  let s := s.modMount fun m => { m with found := m.found.filter fun f => !decide (f.sector = k) }
  let s := match s.store.reclaim with
    | some r => if r.step = ReclaimStep.waitErased then s.reclaimRead r else s
    | none => s
  let parked := s.store.parked
  let s := s.modStore fun st => { st with parked := [] }
  parked.foldl (fun s j => s.submitWrite ⟨.retired, 0, [], true, .closeSector j⟩) s

/-- The reclaim has ended with its victim ERASED or retired (R30). -/
def State.endReclaim (s : State) (v : Nat) : State :=
  (s.modStore fun st => { st with reclaim := none, copyRec := none, forced := st.forced.filter fun k => !decide (k = v) }).post
    .reclaimTest

/-- The erase count a sector receives after a successful erase (R25, R30). -/
def State.nextCount (s : State) (k : Nat) : Nat := (s.sector k).count.getD 0 + 1

/-- The result of the victim's erase (R30). -/
def State.victimErased (s : State) (k : Nat) (ok : Bool) : State :=
  if ok then
    match s.store.reclaim with
    | some r => (s.setReclaim (some { r with step := .counting })).programCount k (s.nextCount k) (.reclaimCount k)
    | none => s
  else ((s.modSector k fun v => { v with state := .out }).checkNamed).endReclaim k

/-- The forced reclaim of a list of sectors (R30). DESIGN CHOICE (log entry 33): the close of an OPEN one takes its turn in the
write list, behind the writes that wait there already. -/
def State.forceReclaim (s : State) (ks : List Nat) : State :=
  let s := s.modStore fun st => { st with named := some ks }
  let s := ks.foldl (fun s k =>
    match (s.sector k).state with
    | .open => s.submitWrite ⟨.retired, 0, [], true, .closeSector k⟩
    | .full => if s.store.forced.contains k then s else s.modStore fun st => { st with forced := st.forced ++ [k] }
    | .erased => s
    | .reclaiming => s
    | .out => s) s
  s.checkNamed.post .reclaimTest

/-- A forced close has ended: the sector is queued as a FULL one; one that found no ERASED sector waits for one (R30). -/
def State.closeEnded (s : State) (k : Nat) : State :=
  if (s.sector k).state = .full ∧ s.store.forced.contains k = false then
    (s.modStore fun st => { st with forced := st.forced ++ [k] }).post .reclaimTest
  else if (s.sector k).state = .open then s.modStore fun st => { st with parked := st.parked ++ [k] }
  else s

/-! ### Retirement (R31) -/

/-- A retirement is reported: the RETIRED record is written, or held until mount writes it. -/
def State.noteRetired (s : State) (c : Sector) : State :=
  let s := s.modStore fun st => { st with retiredList := st.retiredList ++ [c] }
  let s := match c.area with
    | .image => s
    | .store => s.modSector c.index fun v => { v with state := .out }
  if s.store.cond = .mounted then s.submitWrite ⟨.retired, 0, retiredPayload s.store.retiredList, true, .retiredList⟩
  else s.modStore fun st => { st with retiredHeld := true }

/-- The store has nothing in hand: no write, no program. -/
def Store.quiet (st : Store) : Bool := st.writes.isEmpty && st.cur.isNone && st.progs.isEmpty

end Sys2Proof.Machine
end

