-- ==== Sys2Proof/Machine/Image.lean ====
section
/-! DEFINITION. The Image Manager's own work (05_image_slots_and_staging.md): slot writes (R70), the tests of STAGE-BEGIN
(R72, R73), slot erases (R74, R84, R85), staged pages (R75, R76), staging checks (R77, R78), the end of a session (R80, R81). -/

namespace Sys2Proof.Machine

/-! ### Slot writes (R70) -/

/-- A change of a slot that takes effect now, written as a critical write; its failure is submitted again (R70, R97). -/
def State.takeSlot (s : State) (i : SlotId) (e : SlotEntry) (f : WriteFor) : State :=
  (s.setSlot i e).submitWrite ⟨.slot, i.id, e.payload, true, f⟩

/-- A change of a slot that takes effect when its write is DURABLE (R70). -/
def State.writeSlot (s : State) (i : SlotId) (e : SlotEntry) (f : WriteFor) : State :=
  s.submitWrite ⟨.slot, i.id, e.payload, true, f⟩

/-- The entry made FAILED with a reason: no try mark, no session (R68, R78, R80). -/
def SlotEntry.failedWith (e : SlotEntry) (r : Reason) : SlotEntry :=
  { e with state := .failed, reason := some r, tryMark := false, trialBoots := 0, received := 0, owner := none }

/-- A SLOT write that the close of the commit's journal waits for, when `c` says that it is one (R123, R126). -/
def State.owe (s : State) (i : SlotId) (c : Bool) : State :=
  if c then s.modImage fun g => { g with owed := g.owed ++ [i] } else s

/-- A change that takes effect at once (R70); `c`: by a step of a commit, a completion or a replay (R118 to R120, R126). -/
def State.changeSlot (s : State) (i : SlotId) (e : SlotEntry) (c : Bool := false) : State :=
  (s.owe i c).takeSlot i e (.slotTaken i c)

/-- A slot becomes FAILED at once. -/
def State.failSlot (s : State) (i : SlotId) (r : Reason) (c : Bool := false) : State :=
  s.changeSlot i ((s.slot i).failedWith r) c

/-- A later change of the slot has taken effect and waits in the write list (log entry 14). -/
def State.slotOvertaken (s : State) (i : SlotId) : Bool :=
  s.store.writes.any fun w =>
    match w.for_ with
    | .slotTaken j _ => decide (j = i)
    | .stageEndFailed _ j _ => decide (j = i)
    | .promotion j => decide (j = i)
    | _ => false

/-- A change waiting in the write list, or begun and not ended, that satisfies `p` (R24). -/
def State.slotWriteInFlight (s : State) (p : WriteFor → Bool) : Bool :=
  (s.store.writes.any fun w => p w.for_) || s.store.cur.any fun a => p a.write.for_

/-- A change still to have its result that satisfies `p` (R70). -/
def State.slotResultDue (s : State) (p : WriteFor → Bool) : Bool :=
  (s.store.writes.any fun w => p w.for_) || s.unreported.any fun a => p a.write.for_

/-- The slot's record is written once more with the entry as it stands; it stands for a commit's write that failed too
(R70, R123). -/
def State.rewriteSlot (s : State) (i : SlotId) : State :=
  s.writeSlot i (s.slot i) (.slotAgain i (s.image.owed.contains i))

/-- The record written last for the slot carries a change that was not applied, so it is written again with the entry as it
stands, unless a later change of the slot is waiting to be (R70, log entry 14). -/
def State.correctSlot (s : State) (i : SlotId) : State := if s.slotOvertaken i then s else s.rewriteSlot i

/-- The answer to a request whose slot change could not be written (R70). -/
def State.refuseWrite (s : State) (r : Req) (res : WriteResult) : State := s.refuse r res.status

/-! ### The tests of STAGE-BEGIN (R72, R73) -/

/-- A STAGE-BEGIN has taken a slot of the target and its record's write is still to have its result (R73, log entry 14). -/
def State.stageReserved (s : State) (target : Master) : Bool :=
  s.slotResultDue fun
    | .stageBegin _ i _ => decide (i.master = target)
    | _ => false

/-- Test 5 of R72: the slot chosen, or the detail of the refusal. -/
def State.chooseSlot (s : State) (target : Master) (overwrite : Bool) : SlotNo ⊕ Option Reason :=
  let free := fun (n : SlotNo) => !(s.slot ⟨target, n⟩).erasePending
  let vacant := fun (n : SlotNo) =>
    let st := (s.slot ⟨target, n⟩).state
    decide (st = .blank) || decide (st = .failed)
  let old := fun (n : SlotNo) => overwrite && decide ((s.slot ⟨target, n⟩).state = .fallback)
  let sound := fun (n : SlotNo) => !s.slotRetired ⟨target, n⟩
  let first := fun (p : SlotNo → Bool) => if p .s0 then some SlotNo.s0 else if p .s1 then some SlotNo.s1 else none
  match first fun n => vacant n && sound n && free n with
  | some n => .inl n
  | none =>
    match first fun n => old n && sound n && free n with
    | some n => .inl n
    | none =>
      .inr (if (first fun n => (vacant n || old n) && free n && !sound n).isSome then some .damaged else none)

/-- The signer and level checks of test 6 of R72. -/
def State.signerFailure (s : State) (target : Master) (m : Bytes) : Option Reason :=
  let v := s.bank.view
  if v.present (manifestSigner m) = false then some .signerAbsent
  else if v.isRevoked (manifestSigner m) then some .signerRevoked
  else if manifestLevel m < v.floors.get target then some .level
  else none

/-- Tests 2, 4 and 5 of R72. -/
def State.placeTests (s : State) (target : Master) (overwrite : Bool) : SlotNo ⊕ (Status × Option Reason) :=
  if s.commitInProgress then .inr (.conflict, none)
  else if (s.pendingSlot target).isSome || s.stageReserved target then .inr (.state, none)
  else
    match s.chooseSlot target overwrite with
    | .inl n => .inl n
    | .inr d => .inr (.state, d)

/-- Test 6 of R72, with the slot chosen. -/
def State.manifestFailure (s : State) (target : Master) (m : Bytes) : Option Reason :=
  if manifestWellFormed m = false then some .format
  else if manifestTarget m ≠ target.idx then some .wrongTarget
  else if manifestLength m = 0 ∨ slotCapacity target < manifestLength m then some .length
  else s.signerFailure target m

/-- The digest of the signer public key matches the row named (R69). -/
def State.signerMatches (s : State) (m digest : Bytes) : Bool :=
  match s.bank.view.signers[manifestSigner m]? with
  | some r => decide (r.digest = some digest)
  | none => false

/-- R73: the tests repeated after the VERIFY job; the slot is written as "staging". -/
def State.stageVerified (s : State) (r : Req) (target : Master) (overwrite : Bool) (m : Bytes) : State :=
  match s.placeTests target overwrite with
  | .inr (st, d) => s.refuse r st d
  | .inl n =>
    match s.signerFailure target m with
    | some d => s.refuse r .badRequest (some d)
    | none =>
      let i : SlotId := ⟨target, n⟩
      let e : SlotEntry := { SlotEntry.blank with state := .erasing, manifest := some m, owner := some r.port }
      (s.setWork r .other).writeSlot i e (.stageBegin r i m)

/-! ### Slot erases (R74, R84, R85) -/

/-- One erase request naming every sector of a slot, in ascending order. -/
def State.eraseSlot (s : State) (i : SlotId) (r : Req) (staging : Bool) : State :=
  let (t, s) := s.fresh
  let task : EraseTask :=
    { task := t, sid := i, req := r, staging := staging, live := staging, remaining := i.sectors, anyRetired := false }
  (s.modImage fun g => { g with tasks := g.tasks ++ [task] }).requestErase (.image t) i.sectors

/-- The record of a STAGE-BEGIN is DURABLE: the slot is ERASING and its erase is requested (R73, R74); a slot that is no
longer a candidate is not taken (log entry 14). DESIGN CHOICE (log entry 45): the session begins, with the requester's port as its
owner, also where a master reset of the requester came while the record was being written (R81). -/
def State.stageBegun (s : State) (r : Req) (i : SlotId) (m : Bytes) : State :=
  let e := s.slot i
  if (e.state = .blank ∨ e.state = .failed ∨ e.state = .fallback) ∧ e.erasePending = false ∧ s.slotOvertaken i = false then
    let s := s.setSlot i { SlotEntry.blank with state := .erasing, manifest := some m, owner := some r.port }
    (s.setWork r (.stageErase i)).eraseSlot i r true
  else (s.correctSlot i).refuse r .state e.reason

/-! ### Staged pages (R75, R76) -/

/-- The page program at the head of the Image Manager's queue is submitted. -/
def State.submitPage (s : State) : State :=
  match s.image.pages with
  | [] => s
  | p :: _ => s.submitProgram ⟨.image, p.addr, p.data⟩

/-- The pages of one STAGE-DATA join the queue (R5, R75). DESIGN CHOICE (log entry 38): all of them wait from the taking of the
request, so they go before the pages of a request taken later. -/
def State.queuePages (s : State) (r : Req) (i : SlotId) (offset : Nat) (data : Bytes) : State :=
  let cut := pagesOf 8 (i.bodyAddr offset) data
  let n := cut.length
  let ps := cut.zipIdx.map fun (p, k) =>
    ({ req := r, sid := i, addr := p.1, data := p.2, last := decide (k + 1 = n), total := data.length } : StagePage)
  let idle := s.image.pages.isEmpty
  let s := s.modImage fun g => { g with pages := g.pages ++ ps }
  if idle then s.submitPage else s

/-- A STAGE-DATA whose slot has left LOADING is answered STATE with the slot's reason (R75). -/
def State.stageDataLate (s : State) (r : Req) (i : SlotId) : State := s.refuse r .state (s.slot i).reason

/-- A slot leaves LOADING: only a page already in progress completes; a request with none is answered at once (R75). -/
def State.dropPages (s : State) (i : SlotId) : State :=
  let busy := s.image.pages.head?.any fun p => decide (p.sid = i)
  let s := s.modImage fun g => { g with
    pages := g.pages.take 1 ++ (g.pages.drop 1).filter fun p => !decide (p.sid = i) }
  if busy then s
  else Master.all.foldl (fun s m => if (s.port m).work = .stageData i then s.stageDataLate (s.reqOf m) i else s) s

/-! ### Staging checks (R63, R64, R77, R78) -/

/-- The check's body chunk (R63). -/
def chunkRun (i : SlotId) (m : Bytes) (chunk : Nat) : Run :=
  ⟨i.bodyAddr (4096 * chunk), min 4096 (manifestLength m - 4096 * chunk)⟩

/-- The chunk is the last (R63). -/
def chunkLast (m : Bytes) (chunk : Nat) : Bool := decide (manifestLength m ≤ 4096 * (chunk + 1))

def State.checkOf (s : State) (c : Nat) : Option Check := s.image.checks.find? fun k => decide (k.check = c)

/-- Submits the verification read at the head of the Image Manager's queue; one whose check has stopped is dropped. -/
def State.submitCheckRead (s : State) : State :=
  match s.image.reads.findSome? s.checkOf with
  | none => s.modImage fun g => { g with reads := [] }
  | some k =>
    (s.modImage fun g => { g with reads := g.reads.dropWhile fun c => !decide (c = k.check) }).submitRead
      ⟨.internal .image, chunkRun k.sid (s.slot k.sid).mf k.chunk⟩

/-- A check wants its next chunk (R5, R63). -/
def State.queueCheckRead (s : State) (c : Nat) : State :=
  let idle := s.image.reads.isEmpty
  let s := s.modImage fun g => { g with reads := g.reads ++ [c] }
  if idle then s.submitCheckRead else s

/-- R77: the chunked digest of a CHECKING slot begins. -/
def State.startCheck (s : State) (r : Req) (i : SlotId) : State :=
  let (c, s) := s.fresh
  (s.modImage fun g => { g with checks := g.checks ++ [⟨c, i, r, 0, none⟩] }).queueCheckRead c

/-- The Image Manager's read has ended: the chunk's DIGEST job is submitted (R63, R64). -/
def State.checkReadEnded (s : State) (data : Bytes) : State :=
  match s.image.reads with
  | [] => s
  | c :: rest =>
    let s := (s.modImage fun g => { g with reads := rest }).submitCheckRead
    match s.checkOf c with
    | none => s
    | some k =>
      s.submitJob (.mk' .image (.digest k.ctx data (chunkLast (s.slot k.sid).mf k.chunk)) .none (.stagingCheck c))

/-- A check is stopped: its job that has not started is withdrawn (R64). DESIGN CHOICE (log entry 15): also where a master reset
ends the session (R81), though R66 does not let a master reset withdraw an Image job. -/
def State.stopCheck (s : State) (i : SlotId) : State :=
  let cs := (s.image.checks.filter fun k => decide (k.sid = i)).map (·.check)
  (s.modImage fun g => { g with checks := g.checks.filter fun k => !decide (k.sid = i) }).withdraw .image fun j =>
    match j.for_ with
    | .stagingCheck c => cs.contains c
    | _ => false

/-- A READY or TRIAL slot, or one still CHECKING whose READY record's write is still to have its result (R78, R79, log entry
14). -/
def State.readyOrTrial (s : State) (i : SlotId) : Bool :=
  decide ((s.slot i).state = .ready) || decide ((s.slot i).state = .trial) ||
    (decide ((s.slot i).state = .checking) && s.slotResultDue fun
      | .stageReady _ j => decide (j = i)
      | _ => false)

/-- The five checks of R78, in order: the reason of the first that fails. -/
def State.checkFailure (s : State) (i : SlotId) (digest : Bytes) : Option Reason :=
  let m := (s.slot i).mf
  let v := s.bank.view
  let k := manifestSigner m
  if v.present k = false then some .signerAbsent
  else if v.isRevoked k || s.commitMask.getLsbD k then some .signerRevoked
  else if SlotId.all.any fun j => !decide (j = i) && s.readyOrTrial j && (maskSet (manifestMask (s.slot j).mf)).getLsbD k then
    some .signerPendingRevoke
  else if manifestLevel m < v.floors.get i.master then some .level
  else if hasBit (manifestMask m) k || SlotId.all.any fun j =>
      !decide (j = i) && (s.readyOrTrial j || decide ((s.slot j).state = .current)) &&
        hasBit (manifestMask m) (manifestSigner (s.slot j).mf) then
    some .revokeInUse
  else if digest ≠ manifestDigest m then some .digest
  else none

/-- The entry a slot takes when its checks pass (R78). -/
def SlotEntry.ready (e : SlotEntry) : SlotEntry :=
  { e with state := .ready, reason := none, tryMark := hasBit (manifestFlags e.mf) 0, trialBoots := 0, received := 0,
           owner := none, checked := true }

/-- The final chunk of a CHECKING slot's digest has ended (R78). -/
def State.checkDone (s : State) (k : Check) (digest : Bytes) : State :=
  let s := s.modImage fun g => { g with checks := g.checks.filter fun x => !decide (x.check = k.check) }
  match s.checkFailure k.sid digest with
  | none => s.writeSlot k.sid (s.slot k.sid).ready (.stageReady k.req k.sid)
  | some reason => s.takeSlot k.sid ((s.slot k.sid).failedWith reason) (.stageEndFailed k.req k.sid reason)

/-- A chunk's job has ended (R63, R78). -/
def State.checkJobEnded (s : State) (c : Nat) (r : JobResult) : State :=
  match s.checkOf c with
  | none => s
  | some k =>
    match r with
    | .context ctx =>
      (s.modImage fun g => { g with checks := g.checks.map fun x =>
        if x.check = c then { x with chunk := x.chunk + 1, ctx := some ctx } else x }).queueCheckRead c
    | .digest d => s.checkDone k d
    | _ => s

/-- The answer of STAGE-END: the outcome state and reason (11.8). -/
def State.stageEndAnswer (s : State) (r : Req) (st : SlotState) (reason : Option Reason) : State :=
  s.answer r .ok [st.code, detailCode reason]

/-- The READY record's write has ended (R78). DESIGN CHOICE (log entry 62): the checked mark is set here, with READY, and not as
check 5 passes. -/
def State.readyWritten (s : State) (r : Req) (i : SlotId) (res : WriteResult) : State :=
  let e := s.slot i
  if e.state = .checking ∧ s.slotOvertaken i = false then
    match res with
    | .durable => (s.setSlot i e.ready).stageEndAnswer r .ready none
    | .noSpace => (s.setSlot i { e with state := .loading, received := manifestLength e.mf }).refuseWrite r res
    | .fault => (s.setSlot i { e with state := .loading, received := manifestLength e.mf }).refuseWrite r res
  else if res = .durable then (s.correctSlot i).refuse r .state e.reason
  else s.refuse r .state e.reason

/-! ### The end of a session (R80, R81, R119) -/

/-- The request WORKING for a staging session is answered STATE with a detail. -/
def State.refuseStaging (s : State) (r : Req) (i : SlotId) : State := s.refuse r .state (s.slot i).reason

/-- A slot in a staging state becomes FAILED (`c`: by a step of a commit), and its session ends: its erase goes on with its results disregarded, its
pages stop, its check is stopped, and the request WORKING for it is answered (R74, R75, R80, R81). -/
def State.endSession (s : State) (i : SlotId) (reason : Reason) (c : Bool := false) : State :=
  let old := (s.slot i).state
  let s := s.failSlot i reason c
  let s := match old with
    | .erasing =>
      let rs := (s.image.tasks.filter fun t => decide (t.sid = i) && t.staging && t.live).map (·.req)
      let s := s.modImage fun g => { g with tasks := g.tasks.map fun t =>
        if t.sid = i ∧ t.staging = true then { t with live := false } else t }
      rs.foldl (fun s r => s.refuseStaging r i) s
    | .loading => s.dropPages i
    | .checking =>
      let s := s.stopCheck i
      Master.all.foldl (fun s m => if (s.port m).work = .stageEnd i then s.refuseStaging (s.reqOf m) i else s) s
    | _ => s
  s

/-- A page program of a STAGE-DATA has completed (R75, R76). -/
def State.pageEnded (s : State) (res : ProgResult) : State :=
  match s.image.pages with
  | [] => s
  | p :: rest =>
    let s := s.modImage fun g => { g with pages := rest }
    let e := s.slot p.sid
    let inSession := decide (e.state = .loading) && decide (e.owner = some p.req.port) &&
      decide (s.workOf p.req = .stageData p.sid)
    let s :=
      if inSession then
        if res = .ok then
          if p.last then
            let e := { e with received := e.received + p.total }
            (s.putSlot p.sid e).answer p.req .ok (le 4 e.received)
          else s
        else
          let s := s.modImage fun g => { g with pages := g.pages.filter fun q => !decide (q.req = p.req) }
          (s.failSlot p.sid .flash).refuse p.req .flashFault
      else if s.workOf p.req = .stageData p.sid then s.stageDataLate p.req p.sid
      else s
    s.submitPage

/-! ### Ends of slot erases (R74, R85) -/

/-- The answer to a SLOT-ERASE that found a retired sector (R85). -/
def State.answerDamaged (s : State) (r : Option Req) : State :=
  match r with
  | some r => s.refuse r .flashFault (some .damaged)
  | none => s

/-- A slot found to hold a retired sector becomes FAILED(DAMAGED) (R74, R85): from a staging state at once, else when its write
is DURABLE (R70). -/
def State.damageSlot (s : State) (i : SlotId) (r : Option Req) : State :=
  let e := s.slot i
  if e.state = .failed ∧ e.reason = some .damaged then s.answerDamaged r
  else if e.state.staging then (s.endSession i .damaged).answerDamaged r
  else s.writeSlot i (e.failedWith .damaged) (.damage r i)

/-- The write of FAILED(DAMAGED) has ended; a slot that a later change has taken keeps that (R70, R74, R85, log entry 14). -/
def State.damageWritten (s : State) (r : Option Req) (i : SlotId) (res : WriteResult) : State :=
  match res with
  | .durable =>
    let s : State :=
      if s.slotOvertaken i then s
      else if (s.slot i).state.staging then s.endSession i .damaged
      else s.setSlot i ((s.slot i).failedWith .damaged)
    s.answerDamaged r
  | .noSpace => r.elim s fun r => s.refuseWrite r res
  | .fault => r.elim s fun r => s.refuseWrite r res

/-- Every sector of a staging erase has reported (R74). DESIGN CHOICE (log entry 39): a RETIRED result of an erase that an
earlier session asked for is disregarded while a new session of the slot is ERASING, whose own results will tell. -/
def State.stagingErased (s : State) (t : EraseTask) : State :=
  let e := s.slot t.sid
  if t.live && decide (e.state = .erasing) then
    if t.anyRetired then (s.failSlot t.sid .damaged).refuse t.req .flashFault (some .damaged)
    else (s.setSlot t.sid { e with state := .loading, received := 0 }).answer t.req .ok [BitVec.ofNat 8 t.sid.slot.idx]
  else if t.anyRetired && !decide (e.state = .erasing) then s.damageSlot t.sid none
  else s

/-- Every sector of a SLOT-ERASE has reported (R85, log entry 27). -/
def State.slotErased (s : State) (t : EraseTask) : State :=
  let e := { s.slot t.sid with checked := false, erasePending := false }
  let s := s.putSlot t.sid e
  if t.anyRetired then s.damageSlot t.sid (some t.req)
  else s.submitRemoval .slot t.sid.id (.blank t.req t.sid)

/-- One sector of an erase request of the Image Manager has reported (R74, R85). -/
def State.imageErased (s : State) (task : Nat) (c : Sector) (ok : Bool) : State :=
  match s.image.tasks.find? fun t => decide (t.task = task) with
  | none => s
  | some t =>
    let t := { t with remaining := t.remaining.erase c, anyRetired := t.anyRetired || !ok }
    if t.remaining.isEmpty then
      let s := s.modImage fun g => { g with tasks := g.tasks.filter fun x => !decide (x.task = task) }
      if t.staging then s.stagingErased t else s.slotErased t
    else s.modImage fun g => { g with tasks := g.tasks.map fun x => if x.task = task then t else x }

/-- The removal of a SLOT-ERASE has ended (R85). -/
def State.blankWritten (s : State) (r : Req) (i : SlotId) (res : WriteResult) : State :=
  let e := s.slot i
  match res with
  | .durable =>
    if (e.state = .failed ∨ e.state = .fallback) ∧ s.slotOvertaken i = false then
      (s.setSlot i .blank).answer r .ok []
    else (s.correctSlot i).refuse r .state e.reason
  | .noSpace => s.refuseWrite r res
  | .fault => s.refuseWrite r res

/-! ### Abort and activation (R80, R86, R87) -/

/-- The record of an abort of a READY or TRIAL slot has ended (R80). -/
def State.abortWritten (s : State) (r : Req) (i : SlotId) (res : WriteResult) : State :=
  let e := s.slot i
  match res with
  | .durable =>
    if s.commitHolds i.master then (s.correctSlot i).refuse r .conflict
    else if (e.state = .ready ∨ e.state = .trial) ∧ s.slotOvertaken i = false then
      let onIt := decide (e.state = .trial) && decide ((s.sup i.master).served = .slot i.slot)
      let s := (s.setSlot i (e.failedWith .aborted)).answer r .ok []
      if onIt then s.post (.masterReset i.master (if r.port = i.master then none else some .restarted)) else s
    else (s.correctSlot i).refuse r .state e.reason
  | .noSpace => s.refuseWrite r res
  | .fault => s.refuseWrite r res

/-- The try mark is set: ACTIVATE is answered, and the target's Supervisor is told (R86, R87). -/
def State.activated (s : State) (r : Req) (i : SlotId) (now : Bool) : State :=
  let s := (s.answer r .ok []).post (.eligible i.master)
  if now then s.post (.masterReset i.master (if r.port = i.master then none else some .restarted)) else s

/-- The record of a try mark has ended (R86). A mark that is not applied does not stay in the record either (R70, log entry
14). -/
def State.tryMarkWritten (s : State) (r : Req) (i : SlotId) (now : Bool) (res : WriteResult) : State :=
  let e := s.slot i
  match res with
  | .durable =>
    if e.state = .ready ∧ s.slotOvertaken i = false then (s.setSlot i { e with tryMark := true }).activated r i now
    else (s.correctSlot i).refuse r .state e.reason
  | .noSpace => s.refuseWrite r res
  | .fault => s.refuseWrite r res

end Sys2Proof.Machine
end

