-- ==== Sys2Proof/Machine/Measure.lean ====
section
/-! DEFINITION. The Measurement Unit (09_measurement_cells_and_attestation.md): cell 0, extends, the statement of ATTEST. -/

namespace Sys2Proof.Machine

/-- The rescue digest: the SHA-256 of the Rescue ROM's 65,536 bytes (9.1). -/
@[irreducible] def rescueDigest : Bytes := sha256 ((List.range 65536).map Config.rescueRom)

/-- A master reset clears cells, locks and log; the release count stays (R150). -/
def MeasSet.cleared (v : MeasSet) : MeasSet := { MeasSet.reset with releases := v.releases }

/-- Cell 0 is set and locked (R151). -/
def State.setCell0 (s : State) (m : Master) (v : Bytes) : State :=
  s.modMeas m fun x => { x with cells := x.cells.set 0 v, locks := x.locks.set 0 true }

/-- The release count increases; after the largest it returns to 0 (R151). -/
def State.countRelease (s : State) (m : Master) : State := s.modMeas m fun x => { x with releases := x.releases + 1 }

/-- Both changes of an extend together (R153). -/
def MeasSet.extended (x : MeasSet) (cell : Nat) (value digest : Bytes) : MeasSet :=
  { x with cells := x.cells.set cell value, log := x.log ++ [⟨cell, digest⟩] }

/-- The set of locked cells, bit i for cell i (R192). -/
def MeasSet.lockByte (x : MeasSet) : Byte :=
  (List.range 8).foldl (fun b i => if x.locks.getD i false then b ||| BitVec.twoPow 8 i else b) 0

/-- The release count in 4 bytes. -/
def MeasSet.releaseBytes (x : MeasSet) : Bytes := le 4 x.releases.toNat

/-- The END of an EXTEND's DIGEST job (R153). -/
def State.extendDone (s : State) (r : Req) (cell : Nat) (digest value : Bytes) : State :=
  let n := (s.measSet r.port).log.length
  (s.modMeas r.port fun x => x.extended cell value digest).answer r .ok
    ([BitVec.ofNat 8 cell] ++ value ++ [BitVec.ofNat 8 n])

/-! ### The statement (R159, R160, 11.8) -/

/-- The served slot's entry, absent for RESCUE or none. -/
def State.servedEntry (s : State) (m : Master) : Option SlotEntry :=
  match (s.sup m).served with
  | .slot n => some (s.slot ⟨m, n⟩)
  | .rescue => none
  | .none => none

/-- One master section: 18 bytes and the cells of the mask (R160). DESIGN CHOICE (log entry 57): signer, level and build of a served
slot that has become BLANK are absent. -/
def State.section (s : State) (m : Master) (mask : Byte) : Bytes :=
  let r := s.sup m
  let x := s.measSet m
  let image := match s.servedEntry m with
    | some e => e.state.code :: (match e.manifest with
      | some b => [byteAt 2 b, byteAt 3 b] ++ padTo 4 0xFF (slice 8 4 b)
      | none => List.replicate 6 0xFF)
    | none => List.replicate 7 0xFF
  [BitVec.ofNat 8 m.idx, r.phaseCode, r.served.code, servedStateCode r.servedState] ++ image ++ x.releaseBytes ++
    [BitVec.ofNat 8 x.log.length, x.lockByte, mask] ++
    (List.range 8).flatMap fun i => if hasBit mask i then padTo 32 0 (x.cells.getD i zeroValue) else []

/-- The epoch IDENTIFY reports: 0 while the store is UNMOUNTED (R189). -/
def State.epochShown (s : State) : Nat := if s.store.cond = .unmounted then 0 else s.store.epoch

/-- The revoked set as a byte. -/
def FuseView.revokedByte (v : FuseView) : Byte := v.revoked.setWidth 8

/-- The statement for a set of masters with their masks, at the sequence just reached (R159). -/
def State.statement (s : State) (masters : Byte) (masks : Tri Byte) (nonce : Bytes) : Bytes :=
  let v := s.bank.view
  let named := Master.all.filter fun m => hasBit masters m.idx
  [1, s.creds.lifecycle.code] ++ le 8 v.serial.toNat ++ le 2 0x0330 ++ [2] ++ le 4 s.epochShown ++ le 4 s.meas.sequence ++
    [BitVec.ofNat 8 v.floors.app, BitVec.ofNat 8 v.floors.radio, BitVec.ofNat 8 v.floors.line, v.revokedByte] ++ nonce ++
    [BitVec.ofNat 8 named.length] ++ named.flatMap fun m => s.section m (masks.get m)

end Sys2Proof.Machine
end

