-- ==== Sys2Proof/Machine/Supervise.lean ====
section
/-! DEFINITION. The Master Supervisors' own work (06_master_supervision_and_boot_service.md): master resets (R92), boot choice
(R94), release check (R95), release steps (R96), recovery (R98), failover (R102, R103), trial windows (R104 to R106). -/

namespace Sys2Proof.Machine

/-! ### What a BOOT-READ drives (R16, R99) -/

/-- The run of flash locations a window address selects in the served body: none for the rescue image, or past it (R16,
R99). DESIGN CHOICE (log entry 63): the body is that of the manifest the slot has at present. -/
def State.windowRun (s : State) (m : Master) (a : Nat) : Option Run :=
  match (s.sup m).served with
  | .slot n =>
    let i : SlotId := ⟨m, n⟩
    let len := manifestLength (s.slot i).mf
    if a < len then some ⟨i.bodyAddr a, len - a⟩ else none
  | .rescue => none
  | .none => none

/-- A boot read waits at the Flash Controller (R16). -/
def State.bootWaits (s : State) (m : Master) : Bool :=
  s.ctl.wait.any fun
    | .read r => decide (r.by_ = .boot m)
    | .program _ => false

/-- The content of an OPEN window at an address (R99). DESIGN CHOICE (log entry 42): in the run of a program the boot read has
suspended (R13), the bytes from before the program; (log entry 63): the body length is that of the manifest the slot has at
present. -/
def State.windowByte (s : State) (m : Master) (a : Nat) : Byte :=
  match (s.sup m).served with
  | .slot n => if a < manifestLength (s.slot ⟨m, n⟩).mf then memRead s.flash ((SlotId.bodyAddr ⟨m, n⟩) a) else 0xFF
  | .rescue => if a < 65536 then Config.rescueRom a else 0xFF
  | .none => 0xFF

/-- The address lies in the served body (R16, R99). -/
def State.inBody (s : State) (m : Master) (a : Nat) : Bool := (s.windowRun m a).isSome

/-- The bytes a BOOT-READ drove: 0xFF while its window was PENDING and, in the served body, while its boot read waited, `waited`
bytes of it, then the window's content (R16, R99, R100; log entries 11 and 24). -/
def State.bootBytes (s : State) (m : Master) (b : BootTrans) (waited clocked : Nat) : Bytes :=
  match b.addr with
  | none => []
  | some a =>
    let stillWaits := s.bootWaits m
    (List.range clocked).map fun i =>
      let a' := (a + i) % 16777216
      if !b.opened || decide (i < b.lead) then 0xFF
      else if s.inBody m a' && (stillWaits || (b.delayed && decide (i - b.lead < waited))) then 0xFF
      else s.windowByte m a'

/-- A transaction served from an address past the body that has gone on from 16,777,215 to 0: the part in the body arrives at
the Flash Controller. DESIGN CHOICE (log entry 24): it does so as chip select rises. -/
def State.bootWraps (s : State) (m : Master) (b : BootTrans) (clocked : Nat) : State :=
  match b.addr with
  | none => s
  | some a =>
    let a' := (a + b.lead) % 16777216
    match s.windowRun m 0 with
    | some run =>
      if b.opened = true ∧ s.inBody m a' = false ∧ 16777216 < a' + (clocked - b.lead) then s.submitRead ⟨.boot m, run⟩ else s
    | none => s

/-- Chip select rises on a BOOT-READ (R16). -/
def State.bootEnded (s : State) (m : Master) (waited clocked : Nat) : State :=
  match (s.port m).boot with
  | none => s
  | some b =>
    let s := s.bootWraps m b clocked
    let out := s.bootBytes m b waited clocked
    (s.dropBootRead m).modPort m fun p => { p with boot := none, out := out }

/-- A master reset ends a BOOT-READ as chip select rising does (R180). How many bytes the master has clocked by then, since the
window opened, and how many of them the boot read waited, are free values (log entry 11). -/
def State.cutBoot (s : State) (m : Master) : State :=
  match (s.port m).boot with
  | none => s
  | some b => (s.usedFree 2).bootEnded m (Config.freeCount s.free) (b.lead + Config.freeCount (s.free + 1))

/-! ### Master reset (R92) -/

/-- A port reset (R188); the count of accepted frames and the bytes last driven are no part of it. -/
def Port.afterReset (p : Port) : Port := { Port.reset with no := p.no, out := p.out }

/-- The Supervisor's fields after a master reset (R90). -/
def MasterRec.afterReset (r : MasterRec) (now : Nat) (self : Bool) : MasterRec :=
  { r with
    phase := if self then .booting else .held
    hold := if self then none else some .restarting
    holdDeadline := if self then none else some (now + 50)
    window := if self then some .pending else none
    served := .none, servedState := none, contact := none, trial := none, work := .none, skip := none
    assertedAt := if self then r.assertedAt else now }

/-- The key holds of a request whose key is not yet being written are released (R136, R143). -/
def State.dropKeyHolds (s : State) (m : Master) : State :=
  match (s.port m).work with
  | .keyCreate k => s.unholdKey k.handle
  | .agree (some k) => s.unholdKey k.handle
  | _ => s

/-- The credential holds of a request whose record is not yet being written are released (R169, R170). -/
def State.dropCredHolds (s : State) (m : Master) : State :=
  match (s.port m).work with
  | .credDigest _ _ _ =>
    (s.forgetPut (s.reqOf m)).modCreds fun c => { c with holds := c.holds.filter fun h => !decide (h.req = s.reqOf m) }
  | .claimDigest _ _ => s.modCreds fun c => { c with holds := c.holds.filter fun h => !decide (h.req = s.reqOf m) }
  | _ => s

/-- A waiting confirmation of the master leaves the list; one that has not submitted its journal is stopped (R115, R125). -/
def State.dropConfirmation (s : State) (m : Master) : State :=
  let own := fun (c : CommitReq) => decide (c.master = m) && decide (c.cause = .confirmation)
  s.modImage fun g => { g with
    waitingCommits := g.waitingCommits.filter fun c => !own c
    commit := g.commit.map fun c =>
      match c.step with
      | .completionWrites | .completionRevoke | .completionCounter => if own c.cause then { c with stopped := true } else c
      | .journal | .slotFallback | .revoke | .counter | .writes | .close => c }

/-- Ends every session whose owner port is the master's (R81). -/
def State.endSessions (s : State) (m : Master) : State :=
  SlotId.all.foldl (fun s i =>
    if (s.slot i).owner = some m ∧ (s.slot i).state.staging = true then s.endSession i .interrupted else s) s

/-- A digest the Supervisor gives up submits no further job: the one it still keeps back for its place is dropped (R55, R64,
log entry 15). -/
def State.dropKept (s : State) (m : Master) : State :=
  { s with engine := { s.engine with waiting := s.engine.waiting.filter fun j =>
    match j.for_ with
    | .releaseCheck x _ => !decide (x = m)
    | .cell0 x _ => !decide (x = m)
    | _ => true } }

/-- A master reset (R92); a cause that reaches a HELD master makes none. `fault` is the reason its cause sets, none where the
cause leaves it; `self` is a self-restart (R100), whose transaction goes on, where another ends (R180). A release check or a cell
0 digest in progress is given up (R64); its job in the engine's queue is not withdrawn, and its result is disregarded (R66). -/
def State.masterReset (s : State) (m : Master) (fault : Option FaultReason) (self : Bool := false) : State :=
  if (s.sup m).phase = .held then s
  else
    let boot := if self then (s.port m).boot else none
    let s := (s.dropKeyHolds m).dropCredHolds m
    let s := (s.orphanPort m).dropKept m
    let s := if self then s.dropBootRead m else (s.cutBoot m).dropBootRead m
    let s := s.modPort m fun p => { p.afterReset with boot := boot }
    let s := s.modSup m fun r => r.afterReset s.ms self
    let s := (s.dropConfirmation m).endSessions m
    let s := s.modKeys fun k => { k with stackOf := k.stackOf.set m [] }
    let s := s.modMeas m MeasSet.cleared
    let s := s.modCreds fun c => { c with grants := c.grants.set m none }
    let s := match fault with
      | none => s
      | some f => s.setFault m f
    if self then s.post (.tryChoice m) else s

/-! ### Boot window (R99, R100) -/

/-- The boot read behind a transaction arrives, its window address having reached `a` (R16). DESIGN CHOICE (log entry 37): it
arrives then also while a verification read of the same Supervisor, for a release check that has stopped, is outstanding
(R5). -/
def State.bootArrives (s : State) (m : Master) (a : Nat) : State :=
  match s.windowRun m a with
  | none => s
  | some run =>
    let s := s.submitRead ⟨.boot m, run⟩
    s.modPort m fun p => { p with boot := p.boot.map fun b => { b with delayed := s.bootWaits m } }

/-- The window opens under a transaction in progress: it is served from the address it has then reached (R100). How many
bytes the master has clocked is a free value (log entry 11). -/
def State.windowOpens (s : State) (m : Master) : State :=
  match (s.port m).boot with
  | none => s
  | some b =>
    let lead := Config.freeCount s.free
    match b.addr with
    | none => s
    | some a =>
      ((s.usedFree 1).modPort m fun p => { p with boot := some { b with lead := lead, opened := true } }).bootArrives m
        ((a + lead) % 16777216)

/-! ### Boot choice (R94) -/

/-- Why a slot is not eligible (R94). -/
def State.ineligible (s : State) (i : SlotId) : Option Reason :=
  let m := (s.slot i).mf
  let v := s.bank.view
  if manifestTarget m ≠ i.master.idx then some .wrongTarget
  else if v.present (manifestSigner m) = false ∨ v.isRevoked (manifestSigner m) = true then some .revokedLater
  else if manifestLevel m < v.floors.get i.master then some .belowFloor
  else none

/-- The FALLBACK slot that a failure of the CURRENT one promotes (R84, R94). -/
def State.fallback (s : State) (m : Master) : Option SlotId :=
  s.findSlot m fun e => decide (e.state = .fallback) && !e.erasePending

def State.currentSlot (s : State) (m : Master) : Option SlotId := s.findSlot m fun e => decide (e.state = .current)

/-- A slot is reported FAILED; a CURRENT one's FALLBACK is promoted in the same change (R94, R97). `c`: by a commit's step
(R119). -/
def State.reportFailed (s : State) (i : SlotId) (r : Reason) (c : Bool := false) : State :=
  let wasCurrent := decide ((s.slot i).state = .current)
  let s := s.failSlot i r c
  if wasCurrent then
    match s.fallback i.master with
    | some f => s.changeSlot f { s.slot f with state := .current } c
    | none => s
  else s

/-- What a boot choice finds. -/
inductive Choice
  | slot (i : SlotId) (st : ServedState)
  | rescue
  | recovery

/-- Steps 2 to 4 of R94: `n` bounds the CURRENT slots that can fail in turn. -/
def State.chooseCurrent (s : State) (m : Master) : Nat → Choice × State
  | 0 => (if m = .app then .rescue else .recovery, s)
  | n + 1 =>
    match s.currentSlot m with
    | none => (if m = .app then .rescue else .recovery, s)
    | some i =>
      match s.ineligible i with
      | none => (.slot i .current, s)
      | some r => (s.reportFailed i r).chooseCurrent m n

/-- Step 1 of R94; a slot whose trial boot could not be counted is not tried at this release (R96 step 1). -/
def State.chooseTrial (s : State) (m : Master) : Choice × State :=
  match s.findSlot m fun e => (decide (e.state = .ready) && e.tryMark) || decide (e.state = .trial) with
  | none => s.chooseCurrent m 2
  | some i =>
    if (s.sup m).skip = some i.slot then s.chooseCurrent m 2
    else if s.settings.trialBoots ≤ (s.slot i).trialBoots then
      ((s.failSlot i .trialBoots).setFault m .trialBoots).chooseCurrent m 2
    else
      match s.ineligible i with
      | none => (.slot i .trial, s)
      | some r => (s.failSlot i r).chooseCurrent m 2

/-! ### Release steps (R95, R96) -/

/-- Submits the read of the chunk a release check has reached, once the Supervisor's last read has ended (R5, R63). -/
def State.releaseRead (s : State) (m : Master) : State :=
  match (s.sup m).work, (s.sup m).read with
  | .checking c n mf chunk _, none =>
    (s.modSup m fun r => { r with read := some c }).submitRead ⟨.internal (.supervisor m), chunkRun ⟨m, n⟩ mf chunk⟩
  | _, _ => s

/-- R95: a release check begins. -/
def State.startRelease (s : State) (i : SlotId) : State :=
  let (c, s) := s.fresh
  (s.modSup i.master fun r => { r with work := .checking c i.slot (s.slot i).mf 0 none }).releaseRead i.master

/-- Step 3 of R96. -/
def State.release (s : State) (m : Master) (sv : Served) (st : ServedState) : State :=
  let s := s.modSup m fun r =>
    { r with phase := .booting, hold := none, holdDeadline := none, window := some .open, served := sv,
             servedState := some st, contact := some (s.ms + s.settings.contact.get m), work := .none, skip := none }
  (s.countRelease m).windowOpens m

/-- Step 2 of R96 for a slot: the digest of its manifest. -/
def State.startCell0 (s : State) (i : SlotId) (st : ServedState) : State :=
  let (c, s) := s.fresh
  (s.modSup i.master fun r => { r with work := .cell0 c i.slot st }).submitJob
    (.mk' .supervision (.digest none (s.slot i).mf true) .none (.cell0 i.master c))

/-- Step 1 of R96: the trial boot is counted by a write that takes effect when DURABLE. -/
def SlotEntry.trialBooted (e : SlotEntry) : SlotEntry :=
  { e with state := .trial, tryMark := false, trialBoots := e.trialBoots + 1 }

/-- R98: nothing to serve. -/
def State.recover (s : State) (m : Master) : State :=
  let s := s.modSup m fun r =>
    { r with phase := .held, hold := some .recovery, holdDeadline := none, window := none, served := .none, servedState := none,
             work := .none, skip := none, assertedAt := if r.phase = .held then r.assertedAt else s.ms }
  ((s.dropBootRead m).modPort m fun p => { p with boot := none }).setFault m .noImage

/-- Goes on with a choice: release check, release steps or recovery (R94 to R98). -/
def State.follow (s : State) (m : Master) (c : Choice) : State :=
  match c with
  | .recovery => s.recover m
  | .rescue => (s.setCell0 m rescueDigest).release m .rescue .rescue
  | .slot i st =>
    if (s.slot i).checked = false then s.startRelease i
    else if st = .trial then
      (s.modSup m fun r => { r with work := .trialBoot i.slot }).writeSlot i (s.slot i).trialBooted (.trialBoot i)
    else s.startCell0 i st

/-- A write that a boot choice waits for: those of a contact expiry, its failover's among them, but none submitted again after it
(R102, log entry 28), and a trial boot already submitted. -/
def State.choiceWrite (m : Master) : WriteFor → Bool
  | .bootFail x _ _ => decide (x = m)
  | .failover i => decide (i.master = m)
  | .promotion i => decide (i.master = m)
  | .bootFailClear x r => decide (x = m) && r.isNone
  | .trialBoot i => decide (i.master = m)
  | _ => false

/-- A commit of the master has submitted its journal and has not yet rewritten its slot records (R94). -/
def State.commitBlocks (s : State) (m : Master) : Bool :=
  s.image.commit.any fun c => decide (c.cause.master = m) && (decide (c.step = .journal) || decide (c.step = .slotFallback))

/-- The waits before a boot choice have ended (R93, R94, R100, R102). DESIGN CHOICE (log entry 54): those of R94, the one for a store
that is MOUNTING among them, hold for a self-restart too (R100), as in the mount that follows formatting (R52). -/
def State.choiceReady (s : State) (m : Master) : Bool :=
  let r := s.sup m
  let due := match r.phase with
    | .held => decide (r.hold = some .restarting) && (r.holdDeadline.any fun d => decide (d ≤ s.ms))
    | .booting => decide (r.window = some .pending)
    | .running => false
  due && decide (r.work = .none) && !s.bank.reading && !decide (s.store.cond = .mounting) &&
    !(decide (s.bank.view.identity = .programmed) && decide (s.store.cond = .unmounted) && s.store.format.isNone) &&
    !s.commitBlocks m && !s.slotWriteInFlight (State.choiceWrite m)

/-- The boot choice, from step 1, when its waits have ended (R94). -/
def State.tryChoice (s : State) (m : Master) : State :=
  if s.choiceReady m then
    let (c, s) := s.chooseTrial m
    s.follow m c
  else s

/-- The boot choice made again from step 1 (R95, R96). -/
def State.chooseAgain (s : State) (m : Master) : State :=
  (s.modSup m fun r => { r with work := .none }).post (.tryChoice m)

/-- The Supervisor's read has ended (R63, R64). -/
def State.releaseReadEnded (s : State) (m : Master) (data : Bytes) : State :=
  let done := (s.sup m).read
  let s := s.modSup m fun r => { r with read := none }
  match (s.sup m).work with
  | .checking c _ mf chunk ctx =>
    if done = some c then
      s.submitJob (.mk' .supervision (.digest ctx data (chunkLast mf chunk)) .none (.releaseCheck m c))
    else s.releaseRead m
  | .trialBoot _ => s
  | .cell0 _ _ _ => s
  | .none => s

/-- The result of a release check is applied to the slot (R95). -/
def State.applyRelease (s : State) (i : SlotId) (mf digest : Bytes) : State :=
  let e := s.slot i
  let holds := decide (e.manifest = some mf) &&
    (decide (e.state = .ready) || decide (e.state = .trial) || decide (e.state = .current) || decide (e.state = .fallback))
  if holds then
    if digest = manifestDigest mf then s.putSlot i { e with checked := true }
    else (s.reportFailed i .digest).setFault i.master .digest
  else s

/-- A chunk of a release check has ended (R63, R95). -/
def State.releaseJobEnded (s : State) (m : Master) (check : Nat) (res : JobResult) : State :=
  match (s.sup m).work with
  | .checking c n mf chunk _ =>
    if c = check then
      match res with
      | .context ctx => (s.modSup m fun r => { r with work := .checking c n mf (chunk + 1) (some ctx) }).releaseRead m
      | .digest d => (s.applyRelease ⟨m, n⟩ mf d).chooseAgain m
      | _ => s
    else s
  | .trialBoot _ => s
  | .cell0 _ _ _ => s
  | .none => s

/-- The state a chosen slot must still be in before a release step (R96). -/
def servedSlotState : ServedState → SlotState
  | .trial => .trial
  | .current => .current
  | .rescue => .blank

/-- The cell 0 digest has ended: cell 0 is set and the master is released, unless the slot has changed (R96). -/
def State.cell0Ended (s : State) (m : Master) (check : Nat) (res : JobResult) : State :=
  match (s.sup m).work, res with
  | .cell0 c n st, .digest d =>
    if c = check then
      let s := s.setCell0 m d
      if (s.slot ⟨m, n⟩).state = servedSlotState st then s.release m (.slot n) st else s.chooseAgain m
    else s
  | _, _ => s

/-- The write of a trial boot has ended (R96 step 1). After a failure the choice is made without the slot, so from step 2. -/
def State.trialBootWritten (s : State) (i : SlotId) (res : WriteResult) : State :=
  let e := s.slot i
  let waiting := decide ((s.sup i.master).work = .trialBoot i.slot)
  let same := ((decide (e.state = .ready) && e.tryMark) || decide (e.state = .trial)) && !s.slotOvertaken i
  match res with
  | .durable =>
    let s := if same then s.setSlot i e.trialBooted else s.correctSlot i
    if waiting then (if same then s.startCell0 i .trial else s.chooseAgain i.master) else s
  | _ =>
    if waiting then (s.modSup i.master fun r => { r with skip := some i.slot }).chooseAgain i.master else s

/-- An eligible slot now exists: a master in recovery makes a boot choice (R98). -/
def State.leaveRecovery (s : State) (m : Master) : State :=
  if (s.sup m).phase = .held ∧ (s.sup m).hold = some .recovery then
    (s.modSup m fun r =>
      { r with hold := some .restarting, holdDeadline := some (max s.ms (r.assertedAt + 50)) }).post (.tryChoice m)
  else s

/-! ### Contact expiry and failover (R102, R103) -/

/-- The count has its value after a contact expiry: failover at the limit taken at that expiry, else CONTACT_TIMEOUT (R102,
R103). -/
def State.judgeBootFailures (s : State) (m : Master) (limit : Nat) : State :=
  if limit ≤ (s.sup m).bootFailures then
    match s.currentSlot m with
    | some i => s.writeSlot i ((s.slot i).failedWith .bootFailures) (.failover i)
    | none =>
      ((s.modSup m fun r => { r with bootFailures := 0 }).submitRemoval .bootfail m.idx (.bootFailClear m none)).setFault m
        .failover
  else s.setFault m .contactTimeout

/-- The write of a boot-failure count has ended (R102). -/
def State.bootFailWritten (s : State) (m : Master) (n limit : Nat) (res : WriteResult) : State :=
  let s := if res = .durable then s.modSup m fun r => { r with bootFailures := n } else s
  s.judgeBootFailures m limit

/-- The write of a failover's FAILED slot has ended (R103); a slot that is no longer CURRENT has no failover (log entry 14). -/
def State.failoverWritten (s : State) (i : SlotId) (res : WriteResult) : State :=
  let m := i.master
  match res with
  | .durable =>
    if (s.slot i).state = .current ∧ s.slotOvertaken i = false then
      let s := s.setSlot i ((s.slot i).failedWith .bootFailures)
      let s := match s.fallback m with
        | some f => s.takeSlot f { s.slot f with state := .current } (.promotion f)
        | none => s
      ((s.modSup m fun r => { r with bootFailures := 0 }).submitRemoval .bootfail m.idx (.bootFailClear m none)).setFault m
        .failover
    else (s.correctSlot i).setFault m .contactTimeout
  | .noSpace => s.setFault m .contactTimeout
  | .fault => s.setFault m .contactTimeout

/-- The contact deadline is reached (R102). -/
def State.contactExpires (s : State) (m : Master) : State :=
  match (s.sup m).servedState with
  | some .current =>
    let n := (s.sup m).bootFailures
    let limit := s.settings.bootFailureLimit
    let s := s.masterReset m none
    if n < 15 then s.submitWrite ⟨.bootfail, m.idx, bootFailPayload (n + 1), true, .bootFail m (n + 1) limit⟩
    else s.judgeBootFailures m limit
  | _ => s.masterReset m (some .contactTimeout)

/-! ### Trial windows (R104 to R106) -/

/-- Four token bytes from the random source, different from the token before (R104, log entry 8). -/
def newToken (old drawn : Bytes) : Bytes :=
  if drawn = old then le 4 (leNat drawn + 1) else drawn

/-- The trial window ANNOUNCE starts (R104). -/
def State.startTrial (s : State) (m : Master) : State :=
  let v := s.settings
  let w : TrialWindow :=
    { last := s.ms, good := 0, errors := 0, token := s.random 4, deadline := s.ms + v.trialMax, min := v.trialMin,
      max := v.trialMax, limit := v.errorLimit }
  (s.modSup m fun r => { r with trial := some w }).drawn 4

/-- A trial fails at its error limit (R106). -/
def State.failTrial (s : State) (m : Master) : State :=
  let s := match (s.sup m).served with
    | .slot n => if (s.slot ⟨m, n⟩).state = SlotState.trial then s.failSlot ⟨m, n⟩ .trialErrors else s
    | .rescue => s
    | .none => s
  s.masterReset m (some .trialErrors)

end Sys2Proof.Machine
end

