-- ==== Sys2Proof/Machine/Commit.lean ====
section
/-! DEFINITION. Commit, its completion of an earlier commit, and its replay at mount
(07_trial_commit_and_signer_revocation.md). -/

namespace Sys2Proof.Machine

def CommitReq.sid (c : CommitReq) : SlotId := ⟨c.master, c.slot⟩

def JournalCommit.sid (j : JournalCommit) : SlotId := ⟨j.master, j.slot⟩

def State.modCommit (s : State) (f : Commit → Commit) : State := s.modImage fun g => { g with commit := g.commit.map f }

def State.modReplay (s : State) (f : Replay → Replay) : State := s.modImage fun g => { g with replay := g.replay.map f }

/-- What the commit's journal holds (R117). -/
def Commit.journal (c : Commit) : JournalCommit :=
  { master := c.cause.master, slot := c.cause.slot, level := c.level, revoke := c.revoke, bodyDigest := c.cause.bodyDigest }

/-- The tests of the committed slot (R116). -/
def State.commitTest (s : State) (c : CommitReq) : Bool :=
  let e := s.slot c.sid
  let want := match c.cause with
    | .confirmation => SlotState.trial
    | .install => SlotState.ready
  decide (e.state = want) && e.manifest.isSome && decide (manifestDigest e.mf = c.bodyDigest) &&
    s.bank.view.present (manifestSigner e.mf) && !s.bank.view.isRevoked (manifestSigner e.mf)

/-- The commit record leaves, and the first waiting commit starts (R115). -/
def State.dropCommit (s : State) : State := (s.modImage fun g => { g with commit := none }).post .commitNext

/-- A commit does not start: its request is answered (R115, R116). -/
def State.commitRefused (s : State) (r : Req) (st : Status) (d : Option Reason := none) : State := (s.refuse r st d).dropCommit

/-! ### Markings (R119, R120) -/

/-- One slot of the marking of R119. DESIGN CHOICE (log entry 47): a CHECKING slot is passed over also while its READY record is
being written, and where its digest ends before the REVOKE job of a completion has, check 1 of R78 finds the signer unrevoked
(R122), so either becomes READY. -/
def State.markSlot (s : State) (revoke : BitVec 4) (keep i : SlotId) : State :=
  let e := s.slot i
  if i = keep ∨ revoke.getLsbD (manifestSigner e.mf) = false ∨ e.manifest = none then s
  else
    match e.state with
    | .loading | .loaded => s.endSession i .revokedLater true
    | .ready | .trial | .current | .fallback => s.reportFailed i .revokedLater true
    | .blank | .erasing | .checking | .failed => s

/-- Step 3: every slot of a mask signer, in order of SLOT id; a second pass takes a FALLBACK promoted by the first (R119). -/
def State.markRevoked (s : State) (revoke : BitVec 4) (keep : SlotId) : State :=
  if revoke = 0 then s
  else (SlotId.all ++ SlotId.all).foldl (fun s i => s.markSlot revoke keep i) s

/-- Step 4: the master's FALLBACK slots below the level (R120). -/
def State.markFloor (s : State) (m : Master) (level : Nat) : State :=
  [SlotNo.s0, SlotNo.s1].foldl (fun s n =>
    let i : SlotId := ⟨m, n⟩
    if (s.slot i).state = .fallback ∧ manifestLevel (s.slot i).mf < level then s.failSlot i .belowFloor true else s) s

/-- The committed slot's entry as CURRENT (R118). -/
def SlotEntry.committed (e : SlotEntry) : SlotEntry := { e with state := .current, reason := none, tryMark := false, trialBoots := 0 }

/-- The other slot's first change, when it is CURRENT (R118). -/
def State.otherCurrent (s : State) (i : SlotId) : Option SlotId :=
  let o : SlotId := ⟨i.master, i.slot.other⟩
  if (s.slot o).state = .current then some o else none

/-! ### Fuse work (R47, R121, R122) -/

/-- The pending fuse work of a commit, as the fuse view shows it (R47). -/
def State.workLeft (s : State) (j : JournalCommit) : PendingWork :=
  { revoke := j.revoke &&& ~~~s.bank.view.revoked
    target := if s.bank.view.floors.get j.master < j.level then some (j.master, j.level) else none }

/-- A fuse job of a commit ended FAULT (R47). -/
def State.fuseFaulted (s : State) (j : JournalCommit) : State :=
  s.modBank fun b => { b with pendingWork := some (s.workLeft j) }

/-! ### The end of a commit (R123) -/

/-- The answer is handed over, and the commit is finished (R123). -/
def State.commitFinished (s : State) (c : Commit) : State :=
  let st := match c.cause.cause with
    | .confirmation => Status.confirmed
    | .install => Status.ok
  (s.answer c.cause.req st (s.commitPayload c.cause.master c.cause.slot)).dropCommit

/-- The SLOT writes of the journal's commit that have not had their results, by slot (R123). -/
def State.owedPending (s : State) : List SlotId :=
  let sid : Write → Option SlotId := fun w =>
    match w.for_ with
    | .slotTaken i true => some i
    | .slotAgain i true => some i
    | _ => none
  (s.store.writes.filterMap sid) ++ (s.unreported.bind fun a => sid a.write).toList

/-- A SLOT write of the journal's commit is still to have its result, or to be submitted again, for the slot (R118). -/
def State.slotBehind (s : State) (i : SlotId) : Bool := s.owedPending.contains i || s.retryWaits .slot i.id

/-- Step 7, once no SLOT write of the commit is in the write list (R123, log entry 18). -/
def State.commitStep7 (s : State) : State :=
  match s.image.commit with
  | none => s
  | some c =>
    if s.owedPending ≠ [] then s
    else if s.image.owed.isEmpty && s.bank.pendingWork.isNone then
      (s.modCommit fun c => { c with step := .close }).submitRemoval .journalCommit 0 .journalClose
    else s.commitFinished c

/-! ### Steps 1 to 6 (R117 to R121) -/

/-- Steps 2 (second change), 3, 4 and 5 (R118 to R121). DESIGN CHOICE (log entry 49): the committed slot becomes CURRENT whatever its
state has become since the tests before its journal (R116), by its release check failing, say. -/
def State.commitMarks (s : State) (c : Commit) : State :=
  let i := c.cause.sid
  let s := (s.changeSlot i (s.slot i).committed true).post (.tryChoice i.master)
  let s := if c.cause.cause = .install then s.post (.eligible i.master) else s
  let s := (s.markRevoked c.revoke i).markFloor i.master c.level
  (s.modCommit fun c => { c with step := .revoke }).submitFuse (.revoke c.revoke) .commit

/-- Step 2 (R118). -/
def State.commitSlots (s : State) (c : Commit) : State :=
  match s.otherCurrent c.cause.sid with
  | some o => (s.modCommit fun c => { c with step := .slotFallback }).changeSlot o { s.slot o with state := .fallback } true
  | none => s.commitMarks c

/-- Step 1: the journal (R117), unless a master reset has stopped the commit (R125). -/
def State.commitJournal (s : State) (c : Commit) : State :=
  if c.stopped then s.dropCommit
  else if s.commitTest c.cause then
    (s.modCommit fun c => { c with step := .journal, failedWrite := none }).submitWrite
      ⟨.journalCommit, 0, c.journal.payload, true, .journalOpen⟩
  else s.commitRefused c.cause.req .state (s.slot c.cause.sid).reason

/-- The journal's write has ended (R117); a boot choice that waited for it is then made (R94). -/
def State.journalWritten (s : State) (res : WriteResult) : State :=
  match s.image.commit with
  | none => s
  | some c =>
    match res with
    | .durable => (s.modImage fun g => { g with journal := some c.journal }).commitSlots c
    | .noSpace => (s.commitRefused c.cause.req res.status).post (.tryChoice c.cause.master)
    | .fault => (s.commitRefused c.cause.req res.status).post (.tryChoice c.cause.master)

/-! ### Completion of an earlier commit (R116) -/

/-- The completion is over once no SLOT write of it is in the write list: the commit goes on, or is answered (R116). DESIGN CHOICE
(log entry 46): a failed write is answered before a failed job, and of several failed writes the first by its result. -/
def State.completionOver (s : State) : State :=
  match s.image.commit with
  | none => s
  | some c =>
    if s.owedPending ≠ [] then s
    else if !s.image.owed.isEmpty then
      s.commitRefused c.cause.req (if c.failedWrite = some true then .storeFull else .flashFault)
    else if c.faulted then s.commitRefused c.cause.req .fuseFault
    else s.commitJournal c

/-- The SLOT writes of the open journal's commit that have not ended DURABLE are submitted again, but for those in the write
list already and one that waits for the other slot's (R116, R118). -/
def State.resubmitOwed (s : State) : State :=
  let again := (s.owedPending.foldl List.erase s.image.owed).filter fun i => !decide (s.image.second = some i)
  again.foldl (fun s i => s.writeSlot i (s.slot i) (.slotAgain i true)) s

/-- The completion of the commit whose journal is open (R116). DESIGN CHOICE (log entry 48): the marking passes the earlier commit's
slot over whatever manifest it holds by now. -/
def State.completeEarlier (s : State) (j : JournalCommit) : State :=
  let s := s.resubmitOwed
  match s.bank.pendingWork with
  | none => (s.modCommit fun c => { c with step := .completionWrites }).completionOver
  | some w =>
    ((s.markRevoked w.revoke j.sid).modCommit fun c => { c with step := .completionRevoke }).submitFuse (.revoke w.revoke)
      .completion

/-- A commit starts (R116). -/
def State.startCommit (s : State) (c : CommitReq) : State :=
  if s.commitTest c then
    let m := (s.slot c.sid).mf
    let rec_ : Commit :=
      { cause := c, level := manifestLevel m, revoke := maskSet (manifestMask m), step := .completionWrites, stopped := false,
        faulted := false, failedWrite := none }
    let s := s.modImage fun g => { g with commit := some rec_ }
    match s.image.journal with
    | some j => s.completeEarlier j
    | none => s.commitJournal rec_
  else s.commitRefused c.req .state (s.slot c.sid).reason

/-- A commit is caused: it starts at once, or waits (R115). -/
def State.causeCommit (s : State) (c : CommitReq) : State :=
  if s.image.commit.isNone && s.image.waitingCommits.isEmpty then s.startCommit c
  else s.modImage fun g => { g with waitingCommits := g.waitingCommits ++ [c] }

/-- The first waiting commit starts when no commit record exists (R115). -/
def State.commitNext (s : State) : State :=
  if s.image.commit.isSome then s
  else
    match s.image.waitingCommits with
    | [] => s
    | c :: rest => (s.modImage fun g => { g with waitingCommits := rest }).startCommit c

/-! ### Replay (R126) -/

/-- The last step of a replay, once no SLOT write of it is in the write list (R126 step 5). -/
def State.replayClose (s : State) : State :=
  match s.image.replay with
  | none => s
  | some p =>
    if s.owedPending ≠ [] then s
    else if s.image.owed.isEmpty && !p.faulted then
      (s.modReplay fun p => { p with step := .close }).submitRemoval .journalCommit 0 .journalClose
    else (s.modImage fun g => { g with replay := none }).post .mountNext

/-- Steps 2 to 4 of a replay (R126). DESIGN CHOICE (log entry 48): the marking passes the journal's slot over whatever manifest it
holds by now. -/
def State.replayMarks (s : State) (p : Replay) : State :=
  let j := p.journal
  let s := (s.markRevoked j.revoke j.sid).markFloor j.master j.level
  (s.modReplay fun p => { p with step := .revoke }).submitFuse (.revoke j.revoke) .replay

/-- The journal's slot becomes CURRENT. Where the other slot's write has failed, its own write waits for that to end DURABLE
(R118, R126, log entry 30). -/
def State.replaySlot (s : State) (p : Replay) (failed : Bool) : State :=
  let i := p.journal.sid
  let e := (s.slot i).committed
  let s := if failed then ((s.owe i true).setSlot i e).modImage fun g => { g with second := some i } else s.changeSlot i e true
  s.replayMarks p

/-- A replay begins (R126 step 1). -/
def State.startReplay (s : State) (j : JournalCommit) : State :=
  let p : Replay := { journal := j, step := .slotFallback, faulted := false }
  let s := s.modImage fun g => { g with replay := some p }
  let e := s.slot j.sid
  if (e.state = .trial ∨ e.state = .ready) ∧ manifestDigest e.mf = j.bodyDigest then
    match s.otherCurrent j.sid with
    | some o => s.changeSlot o { s.slot o with state := .fallback } true
    | none => s.replaySlot p false
  else s.replayMarks p

/-! ### What commit and replay hear -/

/-- The slot is the one beside another. -/
def SlotId.beside (i j : SlotId) : Bool := decide (i.master = j.master) && !decide (i.slot = j.slot)

/-- The second write of R118 is submitted, if the record of the first slot has become DURABLE as it stands. -/
def State.secondWrite (s : State) (i : SlotId) : State :=
  if s.slotBehind i then s
  else
    let s : State := match s.image.commit with
      | some c => if c.step = .slotFallback ∧ i.beside c.cause.sid = true then s.commitMarks c else s
      | none => s
    let s : State := match s.image.replay with
      | some p => if p.step = .slotFallback ∧ i.beside p.journal.sid = true then s.replaySlot p false else s
      | none => s
    match s.image.second with
    | some j => if i.beside j then (s.modImage fun g => { g with second := none }).rewriteSlot j else s
    | none => s

/-- A replay does not wait for the first write of R118 once it has failed (R126, log entry 30). -/
def State.firstFailed (s : State) (i : SlotId) : State :=
  match s.image.replay with
  | some p => if p.step = .slotFallback ∧ i.beside p.journal.sid = true then s.replaySlot p true else s
  | none => s

/-- A write of a slot change that has taken effect has ended; `c`: one that the close of the journal waits for (R70, R97, R116,
R118, R123, R126). -/
def State.slotWritten (s : State) (i : SlotId) (c : Bool) (res : WriteResult) : State :=
  match res with
  | .durable => (if c then s.modImage fun g => { g with owed := g.owed.erase i } else s).secondWrite i
  | _ =>
    let s := s.retryLater .slot i.id false (.slotAgain i (s.image.owed.contains i))
    let s := if c then s.modCommit fun k =>
        { k with failedWrite := if k.failedWrite = none then some (decide (res = .noSpace)) else k.failedWrite }
      else s
    s.firstFailed i

/-- A SLOT write has left the write list. -/
def State.slotWriteOver (s : State) : State :=
  let s : State := match s.image.commit with
    | some c =>
      match c.step with
      | .writes => s.commitStep7
      | .completionWrites => s.completionOver
      | _ => s
    | none => s
  match s.image.replay with
  | some p => if p.step = .writes then s.replayClose else s
  | none => s

/-- The close of the journal has ended (R123, R126). -/
def State.journalClosed (s : State) (res : WriteResult) : State :=
  let s : State := if res = .durable then
      (s.modImage fun g => { g with journal := none }).modBank fun b => { b with pendingWork := none }
    else s
  let s : State := match s.image.commit with
    | some c => if c.step = .close then s.commitFinished c else s
    | none => s
  match s.image.replay with
  | some p => if p.step = .close then (s.modImage fun g => { g with replay := none }).post .mountNext else s
  | none => s

/-- A fuse job of a commit has ended (R121, R122). -/
def State.commitFuse (s : State) (ok : Bool) : State :=
  match s.image.commit with
  | none => s
  | some c =>
    let s : State := if ok then s else s.fuseFaulted c.journal
    match c.step with
    | .revoke => (s.modCommit fun c => { c with step := .counter }).submitFuse (.counter c.cause.master c.level) .commit
    | .counter => (s.modCommit fun c => { c with step := .writes }).commitStep7
    | _ => s

/-- A fuse job of a completion has ended; both DONE, pending fuse work becomes absent (R47, R116). -/
def State.completionFuse (s : State) (ok : Bool) : State :=
  match s.image.commit, s.image.journal with
  | some c, some j =>
    let s : State := if ok then s else (s.fuseFaulted j).modCommit fun c => { c with faulted := true }
    match c.step with
    | .completionRevoke =>
      let (m, level) := (s.bank.pendingWork.bind (·.target)).getD (j.master, j.level)
      (s.modCommit fun c => { c with step := .completionCounter }).submitFuse (.counter m level) .completion
    | .completionCounter =>
      let s : State := if ok = true ∧ c.faulted = false then s.modBank fun b => { b with pendingWork := none } else s
      (s.modCommit fun c => { c with step := .completionWrites }).completionOver
    | _ => s
  | _, _ => s

/-- A fuse job of a replay has ended (R126). -/
def State.replayFuse (s : State) (ok : Bool) : State :=
  match s.image.replay with
  | none => s
  | some p =>
    let j := p.journal
    let s : State := if ok then s else (s.fuseFaulted j).modReplay fun p => { p with faulted := true }
    match p.step with
    | .revoke => (s.modReplay fun p => { p with step := .counter }).submitFuse (.counter j.master j.level) .replay
    | .counter => (s.modReplay fun p => { p with step := .writes }).replayClose
    | _ => s

end Sys2Proof.Machine
end

