-- ==== Sys2Proof/Machine/Creds.lean ====
section
/-! DEFINITION. The Credential Manager's own work (10_the_owner_credential_table.md): verification, counts and lockouts (R165
to R167), grants (R168), CLAIM's steps (R169), CRED-PUT's writes (R170, R171), the wipe (R176 to R178), and the writes of
SETTINGS (R112, R177). -/

namespace Sys2Proof.Machine

/-! ### The table (R162, R163) -/

def nameOwner : Bytes := ascii "owner"
def nameClaim : Bytes := ascii "claim"

def State.credNamed (s : State) (name : Bytes) : Option CredEntry := s.creds.table.find? fun e => decide (e.name = name)

def State.credAt (s : State) (i : Nat) : Option CredEntry := s.creds.table.find? fun e => decide (e.index = i)

/-- The lowest entry index that no entry occupies and no request holds (R162). -/
def State.freeCred (s : State) : Option Nat :=
  (List.range 32).find? fun i =>
    !(s.creds.table.any fun e => decide (e.index = i)) && !(s.creds.holds.any fun h => decide (h.index = i))

def State.modCred (s : State) (i : Nat) (f : CredEntry → CredEntry) : State :=
  s.modCreds fun c => { c with table := c.table.map fun e => if e.index = i then f e else e }

def State.holdCred (s : State) (r : Req) (i : Nat) (name : Bytes) : State :=
  s.modCreds fun c => { c with holds := c.holds ++ [⟨r, i, name⟩] }

def State.unholdCred (s : State) (i : Nat) : State :=
  s.modCreds fun c => { c with holds := c.holds.filter fun h => !decide (h.index = i) }

/-! ### Grants (R168) -/

/-- A grant opens or is renewed. -/
def State.openGrant (s : State) (m : Master) : State :=
  s.modCreds fun c => { c with grants := c.grants.set m (some (s.ms + s.settings.grantTime * 1000)) }

def State.closeGrant (s : State) (m : Master) : State := s.modCreds fun c => { c with grants := c.grants.set m none }

/-- An open grant closes, and OWNER is raised on its master's port (R168). -/
def State.loseGrant (s : State) (m : Master) : State := if s.granted m then (s.closeGrant m).raise m flagOwner else s

/-! ### Lockouts (R167) -/

/-- How long a lockout for a count lasts, in milliseconds. -/
def lockoutTime (v : Settings) (count : Nat) : Nat := v.lockoutBase * 1000 * min 64 (2 ^ (count - v.lockoutThreshold))

/-- A lockout starts for the count when it is at or above the threshold. -/
def State.lockoutFor (s : State) (count : Nat) (old : Option Nat) : Option Nat :=
  if s.settings.lockoutThreshold ≤ count then some (s.ms + lockoutTime s.settings count) else old

/-- The milliseconds a lockout still has to run (R165). -/
def State.lockedFor (s : State) (e : CredEntry) : Option Nat :=
  match e.lockout with
  | some d => if s.ms < d then some (d - s.ms) else none
  | none => none

/-- LOCKED_OUT, with the milliseconds remaining (R165, R191). -/
def State.refuseLocked (s : State) (r : Req) (left : Nat) : State := s.answer r .lockedOut (0 :: le 4 left)

/-- MISMATCH, with the new count (R166, R191). -/
def State.answerMismatch (s : State) (r : Req) (count : Byte) : State := s.answer r .mismatch [0, count]

/-! ### Verification (R165, R166) -/

/-- The DIGEST job of a verifier's salt followed by a secret (R59, R165). -/
def saltedJob (r : Req) (salt secret : Bytes) : Job :=
  .mk' (.port r.port) (.digest none (salt ++ secret) true) .none (.request r)

/-- A verify is answered OK; of "owner", it opens the requester's grant (R166, R168). -/
def State.verifyOk (s : State) (r : Req) (name : Bytes) : State :=
  let s := if name = nameOwner ∧ (s.credNamed nameOwner).isSome = true ∧ s.live r = true then s.openGrant r.port else s
  s.answer r .ok []

/-- Rewrites an entry's failure count (R166). -/
def State.writeCount (s : State) (e : CredEntry) (then_ : Option VerifyThen) : State :=
  s.submitWrite ⟨.cred, e.index, e.payload, true, .credCount e.index then_⟩

/-- What a comparison does (R166). The name tells CLAIM's check, which goes on to step 2, from CRED-VERIFY. -/
def State.compare (s : State) (r : Req) (e : CredEntry) (matched : Bool) (claim : Option Bytes)
    (proceed : State → Bytes → State) : State :=
  if matched then
    if e.failures = 0 then
      match claim with
      | some owner => proceed s owner
      | none => s.verifyOk r e.name
    else
      let e := { e with failures := 0, lockout := none }
      ((s.modCred e.index fun _ => e).setWork r .other).writeCount e (some (match claim with
        | some owner => .claim r owner
        | none => .ok r))
  else
    let n := min 255 (e.failures + 1)
    let changed := decide (n ≠ e.failures)
    let e := { e with failures := n, lockout := s.lockoutFor n e.lockout }
    let s := s.modCred e.index fun _ => e
    if changed then (s.setWork r .other).writeCount e (some (.mismatch r (BitVec.ofNat 8 n)))
    else s.answerMismatch r (BitVec.ofNat 8 n)

/-- The result of a verify's DIGEST job is judged against the entry as it stands (R165). -/
def State.judgeVerify (s : State) (r : Req) (name : Bytes) (serial : Nat) (digest : Bytes) (claim : Option Bytes)
    (proceed : State → Bytes → State) : State :=
  match s.credNamed name with
  | none => s.refuse r .notFound
  | some e =>
    match e.value with
    | .secret _ => s.refuse r .state
    | .verifier _ stored =>
      if e.serial ≠ serial then s.refuse r .state
      else
        match s.lockedFor e with
        | some left => s.refuseLocked r left
        | none => s.compare r e (decide (digest = stored)) claim proceed

/-! ### CLAIM (R169) -/

/-- Step 2: an index is held, a salt drawn, and the owner secret digested. -/
def State.claimStep2 (s : State) (r : Req) (owner : Bytes) : State :=
  match s.freeCred with
  | none => s.refuse r .full
  | some i =>
    if s.live r then
      let salt := s.random 16
      (((s.drawn 16).holdCred r i nameOwner).setWork r (.claimDigest i salt)).submitJob (saltedJob r salt owner)
    else s

/-- The "owner" entry CLAIM makes. -/
def ownerEntry (i : Nat) (salt digest : Bytes) : CredEntry :=
  { index := i, name := nameOwner, cls := .owner, readers := 1, grantRequired := false, value := .verifier salt digest,
    serial := 1, failures := 0, lockout := none }

/-- Step 2: the salted digest has ended, and the record of "owner" is submitted. DESIGN CHOICE (log entry 58): first the lifecycle
is tested again, and that no earlier CLAIM, whose port a master reset has cleared, has its writes still under way. -/
def State.claimDigested (s : State) (r : Req) (i : Nat) (salt digest : Bytes) : State :=
  let earlier := s.creds.holds.any fun h => decide (h.name = nameOwner) && !decide (h.req = r)
  if s.creds.lifecycle ≠ .unowned then (s.unholdCred i).refuse r .notPermitted
  else if s.creds.wiping || earlier then (s.unholdCred i).refuse r .conflict
  else
    let e := ownerEntry i salt digest
    (s.setWork r .other).submitWrite ⟨.cred, i, e.payload, false, .claimOwner r e⟩

/-- Step 2's write has ended. -/
def State.claimOwnerWritten (s : State) (r : Req) (e : CredEntry) (res : WriteResult) : State :=
  match res with
  | .durable => s.submitWrite ⟨.lifecycle, 0, lifecyclePayload .owned, true, .claimLifecycle r e⟩
  | .noSpace => (s.unholdCred e.index).refuse r res.status
  | .fault => (s.unholdCred e.index).refuse r res.status

/-- Step 3's write has ended (R169). DESIGN CHOICE (log entry 65): the grant opens only while APP is RUNNING (R168), so not while a
master reset that came since holds it. -/
def State.claimLifecycleWritten (s : State) (r : Req) (e : CredEntry) (res : WriteResult) : State :=
  let s := s.unholdCred e.index
  match res with
  | .durable =>
    let s := s.modCreds fun c => { c with lifecycle := .owned, recorded := some .owned, table := c.table ++ [e] }
    let s := if (s.sup r.port).phase = .running then s.openGrant r.port else s
    s.raiseOwnerAll.answer r .ok []
  | .noSpace => (s.submitRemoval .cred e.index (.credRemoval e.index none)).refuse r res.status
  | .fault => (s.submitRemoval .cred e.index (.credRemoval e.index none)).refuse r res.status

/-- A failure count's write has ended (R166). -/
def State.countWritten (s : State) (index : Nat) (then_ : Option VerifyThen) (res : WriteResult) : State :=
  let s := if res = .durable then s else s.retryLater .cred index false (.credCount index none)
  match then_, res with
  | none, _ => s
  | some (.mismatch r n), .durable => s.answerMismatch r n
  | some (.ok r), .durable => s.verifyOk r (((s.credAt index).map (·.name)).getD [])
  | some (.claim r owner), .durable => s.claimStep2 r owner
  | some (.mismatch r _), _ => s.refuse r .flashFault
  | some (.ok r), _ => s.refuse r .flashFault
  | some (.claim r _), _ => s.refuse r .flashFault

/-! ### Owner material that ends DURABLE after a wipe started (R177) -/

/-- A removal record the wipe's removal phase waits for (R178). -/
def State.removeOwned (s : State) (t : RecType) (id : Nat) : State := s.submitRemoval t id .wipeItem

/-! ### CRED-PUT (R170, R171) -/

/-- The CRED-PUTs under way that replace the entry of an index: those whose DIGEST has not ended, and those whose record's write
is still to have its result (R171). -/
def State.replacing (s : State) (index : Nat) : List Req :=
  let putOf : WriteFor → Option Req := fun
    | .credPut r e false => if e.index = index then some r else none
    | _ => none
  let digests := Master.all.filterMap fun m =>
    match (s.port m).work with
    | .credDigest e _ false => if e.index = index then some (s.reqOf m) else none
    | _ => none
  digests ++ (s.store.writes.filterMap fun w => putOf w.for_) ++ (s.unreported.bind fun a => putOf a.write.for_).toList

/-- The record of a CRED-PUT is to be submitted (R171). One that replaces an entry is judged again, and its serial follows the
entry's as it then stands: the record takes it as its write is begun (`State.atBegin`). -/
def State.putCred (s : State) (r : Req) (e : CredEntry) (isNew : Bool) : State :=
  if isNew then (s.setWork r .other).submitWrite ⟨.cred, e.index, e.payload, false, .credPut r e true⟩
  else if r ∈ s.creds.deleted then (s.forgetPut r).refuse r .notFound
  else
    match s.credNamed e.name with
    | some old =>
      let e := { e with index := old.index, serial := old.serial + 1, failures := old.failures }
      (s.setWork r .other).submitWrite ⟨.cred, e.index, e.payload, false, .credPut r e false⟩
    | none =>
      if e.cls = .owner ∧ s.creds.lifecycle ≠ .owned then
        (s.setWork r .other).submitWrite ⟨.cred, e.index, e.payload, false, .credPut r e false⟩
      else s.refuse r .notFound

/-- The record of a CRED-PUT is DURABLE (R171). -/
def State.credStored (s : State) (r : Req) (e : CredEntry) (isNew : Bool) : State :=
  let s := if isNew then s.unholdCred e.index else s
  if e.cls = .owner ∧ s.creds.lifecycle ≠ .owned then (s.removeOwned .cred e.index).refuse r .conflict
  else
    let others := fun (s : State) =>
      if e.name = nameOwner then
        (Master.all.filter fun m => !decide (m = r.port)).foldl (fun s m => s.loseGrant m) s
      else s
    if isNew then (others (s.modCreds fun c => { c with table := c.table ++ [e] })).answer r .ok (le 4 e.serial)
    else if r ∈ s.creds.deleted then s.refuse r .notFound
    else
      match s.credNamed e.name with
      | none => s.refuse r .notFound
      | some old =>
        (others (s.modCred old.index fun _ => { e with failures := old.failures, lockout := old.lockout })).answer r .ok
          (le 4 e.serial)

def State.credPutWritten (s : State) (r : Req) (e : CredEntry) (isNew : Bool) (res : WriteResult) : State :=
  let t := match res with
    | .durable => s.credStored r e isNew
    | .noSpace => (if isNew then s.unholdCred e.index else s).refuse r res.status
    | .fault => (if isNew then s.unholdCred e.index else s).refuse r res.status
  t.forgetPut r

/-- The removal record of a CRED id has ended (R169, R173). DESIGN CHOICE (log entry 64): one of R169 that failed is submitted again
as one of R173 is. -/
def State.credRemovalWritten (s : State) (index : Nat) (r : Option Req) (res : WriteResult) : State :=
  let s := if res = .durable then s else s.retryLater .cred index true (.credRemoval index none)
  match r with
  | none => s
  | some r => if res = .durable then s.answer r .ok [] else s.refuse r res.status

/-! ### SETTINGS (R112, R177) -/

def State.settingsWritten (s : State) (owner : Bool) (v : Settings) (r : Req) (res : WriteResult) : State :=
  match res with
  | .durable =>
    if owner then
      if s.creds.lifecycle = .owned then (s.modCreds fun c => { c with ownerSettings := some v }).answer r .ok []
      else (s.removeOwned .settingsOwner 0).refuse r .conflict
    else (s.modCreds fun c => { c with factorySettings := some v }).answer r .ok []
  | .noSpace => s.refuse r res.status
  | .fault => s.refuse r res.status

/-! ### The wipe (R176 to R178) -/

/-- A wipe starts: its journal is written first (R176). -/
def State.startWipe (s : State) (cause : WipeCause) (r : Option Req) : State :=
  (s.modCreds fun c => { c with wipe := .starting, wipeCause := cause }).submitWrite
    ⟨.journalWipe, 0, cause.payload, true, .wipeOpen r⟩

/-- The removal phase: LIFECYCLE, unless it already says UNOWNED, and every current OWNER-class record (R178, R179). -/
def State.wipeRemoval (s : State) : State :=
  let s := s.modCreds fun c => { c with wipe := .removal }
  let s : State :=
    if s.creds.recorded = some .unowned then s
    else s.submitWrite ⟨.lifecycle, 0, lifecyclePayload .unowned, true, .wipeItem⟩
  ((s.store.mirror.filter fun e => e.ownerClass).foldl (fun s e => s.removeOwned e.type e.id) s).post .wipeTest

/-- The RAM changes of a wipe, as one event (R176). -/
def State.dropOwner (s : State) : State :=
  let s := (Master.all.foldl (fun s m => s.closeGrant m) s).destroyOwnerKeys
  s.modCreds fun c => { c with
    lifecycle := .unowned, wiping := true, ownerSettings := none, table := c.table.filter fun e => !decide (e.cls = .owner) }

/-- The wipe's journal has been written, or not (R176). -/
def State.wipeOpened (s : State) (r : Option Req) (res : WriteResult) : State :=
  match res with
  | .durable =>
    let s := s.dropOwner.raiseOwnerAll
    let s := match r with
      | some r => s.answer r .ok []
      | none => s
    s.wipeRemoval
  | _ =>
    let s := s.modCreds fun c => { c with wipe := .none }
    match r with
    | some r => s.refuse r res.status
    | none => s

/-- A write the end of the removal phase waits for: one of the phase, or of the three kinds of R177 (R178). -/
def ownerWrite : WriteFor → Bool
  | .wipeItem => true
  | .keyNew _ e _ => decide (e.cls = .owner)
  | .credPut _ e _ => decide (e.cls = .owner)
  | .settings owner _ _ => owner
  | _ => false

/-- Inserts an index into a list in ascending order of a key. -/
def insertBy (key : Nat → Nat) (k : Nat) : List Nat → List Nat
  | [] => [k]
  | j :: js => if key k ≤ key j then k :: j :: js else j :: insertBy key k js

/-- Indices in ascending order of a key. -/
def sortBy (key : Nat → Nat) (ks : List Nat) : List Nat := ks.foldr (insertBy key) []

/-- The sectors the wipe's forced reclaim names, in ascending order of sequence (R178). -/
def State.wipeSectors (s : State) : List Nat :=
  sortBy (fun k => (s.sector k).seq.getD 0) (s.sectorsIn .open ++ s.sectorsIn .full ++ s.sectorsIn .reclaiming)

/-- The removal phase ends once its writes have ended DURABLE, none of them in flight or waiting to be submitted again, and
none of the three kinds is in flight: the forced reclaim is requested (R178, log entry 28). -/
def State.wipeTest (s : State) : State :=
  let busy := (s.store.writes.any fun w => ownerWrite w.for_) || (s.store.cur.any fun a => ownerWrite a.write.for_) ||
    s.store.retry.any fun r => ownerWrite r.for_
  if s.creds.wipe = .removal ∧ busy = false then
    (s.modCreds fun c => { c with wipe := .erasure }).forceReclaim s.wipeSectors
  else s

/-- A write of the wipe's replay has failed: mount will go on without its end (R179). -/
def State.replayFailed (s : State) : State :=
  s.modStore fun st => { st with mount := st.mount.map fun m => { m with wipeFailed := true } }

/-- A write of the removal phase has ended (R178). -/
def State.wipeItemWritten (s : State) (w : Write) (res : WriteResult) : State :=
  if res = .durable then
    if w.type = .lifecycle then s.modCreds fun c => { c with recorded := lifecycleOf w.payload } else s
  else s.replayFailed.retryLater w.type w.id w.payload.isEmpty .wipeItem

/-- The forced reclaim is complete: the journal is closed (R178). -/
def State.forcedDone (s : State) : State :=
  if s.creds.wipe = .erasure then
    (s.modCreds fun c => { c with wipe := .closing }).submitRemoval .journalWipe 0 .wipeClose
  else s

/-- The close of the wipe's journal has ended (R178). -/
def State.wipeClosed (s : State) (res : WriteResult) : State :=
  if res = .durable then s.modCreds fun c => { c with wipe := .none, wiping := false }
  else s.replayFailed.retryLater .journalWipe 0 true .wipeClose

end Sys2Proof.Machine
end

