-- ==== Sys2Proof/Machine/Mount.lean ====
section
/-! DEFINITION. Mount (R33 to R37) and what its owners do in it: tables (R67, R90, R111, R128, R134, R162, R164), the DEVICE
keys (R49), slot fix-ups (R82), OWNER removals (R36), the end of mount (R36, R129, R167, R175); formatting (R33, R52). Reads,
and the order of repairs, are the model's choice where the manual gives none (log entry 12). -/

namespace Sys2Proof.Machine

/-- A mount that begins. -/
def Mount.start (r : Option Req) : Mount :=
  { formatting := r, step := .key, headers := [], todo := [], offset := 0, found := [], malformed := [], ends := [],
    supersede := [], unclean := [], erasing := [], resolved := [], wipeFailed := false }

/-- R33: the store becomes MOUNTING and the record-protect key is derived (R49). -/
def State.startMount (s : State) (r : Option Req) : State :=
  (s.modStore fun st => { st with cond := .mounting, mount := some (.start r) }).submitJob
    (.mk' .store (.derive (ascii "LJ330 RECORD" ++ [0])) .seed .recordKey)

/-! ### Reading (R33, R34) -/

/-- The read the present step of mount wants. -/
def State.mountRead (s : State) (k off len : Nat) : State := s.submitRead ⟨.internal .store, ⟨storeAddr k off, len⟩⟩

/-- The header of the first sector still to read. -/
def State.readHeader (s : State) : State :=
  match s.store.mount.bind (·.todo.head?) with
  | some k => s.mountRead k 0 16
  | none => s

/-- The record-protect key has been derived: the headers are read. -/
def State.keyDerived (s : State) (k : Bytes) : State :=
  ((s.modStore fun st => { st with recordKey := some k }).modMount fun m =>
    { m with step := .headers, todo := List.range 64 }).readHeader

/-- The record-area state of a header: OPEN, FULL or RECLAIMING. -/
def Header.hasRecords (h : Header) : Bool :=
  match h.state with
  | some .open => true
  | some .full => true
  | some .reclaiming => true
  | some .erased => false
  | some .out => false
  | none => false

def Mount.header (m : Mount) (k : Nat) : Header := m.headers.getD k ⟨none, none, none⟩

/-- Record reads end, and what was read is resolved. -/
def State.beginRecord (s : State) (resolve : State → State) : State :=
  match s.store.mount with
  | none => s
  | some m =>
    match m.todo with
    | [] => resolve s
    | k :: _ => s.mountRead k m.offset (min 544 (4096 - m.offset))

/-- The reading of a sector ends at `off`. -/
def Mount.endSector (m : Mount) (k off : Nat) : Mount :=
  { m with todo := m.todo.tail, offset := 16, ends := m.ends ++ [(k, off)] }

/-- The next record of the sector, or the next sector when no header is left to read. -/
def Mount.advance (m : Mount) (k off : Nat) : Mount :=
  if 4096 < off + 16 then m.endSector k off else { m with offset := off }

/-! ### Resolution (R34) -/

/-- The RAM view of a sector after resolution (R19, R34, R35). DESIGN CHOICE (log entry 35): a sector that reads RECLAIMING is
resumed also when its reading ended at a malformed header. -/
def Mount.view (m : Mount) (retired : List Sector) (current : List Found) (opened : Option Nat) (k : Nat) : SectorView :=
  let h := m.header k
  let st := if retired.contains (storeSector k) then SecState.out else
    match h.state with
    | some .open => if opened = some k then .open else .full
    | some x => x
    | none => .out
  { state := st, count := h.count, seq := h.seq
    free := ((m.ends.find? fun e => decide (e.1 = k)).map (·.2)).getD 16
    valid := (current.filter fun f => decide (f.sector = k)).foldl (fun n f => n + f.size) 0 }

/-- R34 and the header programs of R35. -/
def State.resolveMount (s : State) : State :=
  match s.store.mount with
  | none => s
  | some m =>
    let ret := match newest (m.found.filter fun f => f.authentic && decide (f.type = .retired)) with
      | some f => retiredOf f.payload
      | none => []
    let list := ret ++ s.store.retiredList.filter fun c => !ret.contains c
    let s := s.modCtl fun c => { c with retired := c.retired ++ list.filter fun x => !c.retired.contains x }
    let live := m.live list
    let current := live.filter (m.isCurrent list)
    let opens := (List.range 64).filter fun k =>
      decide ((m.header k).state = some .open) && !m.malformed.contains k && !list.contains (storeSector k)
    let opened := leastBy (fun k => 4294967296 - ((m.header k).seq.getD 0)) opens
    let toFull := (List.range 64).filter fun k =>
      decide ((m.header k).state = some .open) && !decide (opened = some k) && !list.contains (storeSector k)
    let losers := (live.filter fun f => !m.isCurrent list f).map fun f => (f.sector, f.offset)
    let sup := (m.supersede ++ losers).filter fun p => !list.contains (storeSector p.1)
    let unclean := (List.range 64).filter fun k => (m.header k).state.isNone && !list.contains (storeSector k)
    let s := s.modStore fun st => { st with
      retiredList := list
      mirror := current.map Found.mirror
      nextSeq := 1 + m.found.foldl (fun n f => max n f.seq) 0
      sectors := (List.range 64).map (m.view list current opened) }
    let s := s.modMount fun m => { m with step := .repair, unclean := unclean, resolved := current }
    let s := sup.foldl (fun s p => s.programState p.1 p.2 recSuperseded .mount) s
    (toFull.foldl (fun s k => s.programHeader k secFull .mount) s).post .mountNext

/-- A record header has been read (R34). -/
def State.recordRead (s : State) (m : Mount) (k : Nat) (data : Bytes) : State :=
  match parseRecord k m.offset data with
  | .none => (s.modMount fun m => m.endSector k m.offset).beginRecord State.resolveMount
  | .malformed =>
    (s.modMount fun m => { m.endSector k m.offset with malformed := m.malformed ++ [k] }).beginRecord State.resolveMount
  | .record f =>
    match f.state with
    | .writing =>
      (s.modMount fun m =>
        { m.advance k (m.offset + f.size) with found := m.found ++ [f], supersede := m.supersede ++ [(k, f.offset)] }).beginRecord
        State.resolveMount
    | .superseded =>
      (s.modMount fun m => { m.advance k (m.offset + f.size) with found := m.found ++ [f] }).beginRecord State.resolveMount
    | .valid =>
      (s.modMount fun m => { m with step := .recordTag, found := m.found ++ [f] }).submitJob
        (.mk' .store (.mac (tagInput f.type f.id f.seq f.payload) true) .record .mountTag)

/-- The tag of the record read last has been computed (R34). -/
def State.mountTagged (s : State) (tag : Bytes) : State :=
  match s.store.mount with
  | none => s
  | some m =>
    match m.found.getLast? with
    | none => s
    | some f =>
      let ok := decide (tag = f.tag)
      let counted := !ok && !decide ((m.header f.sector).state = some .reclaiming)
      let s := s.modStore fun st => { st with integrity := st.integrity + (if counted then 1 else 0) }
      (s.modMount fun m =>
        { m.advance f.sector (f.offset + f.size) with
          step := .records
          found := m.found.dropLast ++ [{ f with authentic := ok }]
          supersede := if ok then m.supersede else m.supersede ++ [(f.sector, f.offset)] }).beginRecord State.resolveMount

/-! ### Scan, unclean sectors, blank counts (R35) -/

/-- An ERASED sector read in full is unclean when a location other than its erase count is not erased. -/
def scanUnclean (data : Bytes) : Bool := (data.take 4 ++ data.drop 8).any fun b => !decide (b = erasedByte)

/-- The next sector to scan, or the erases of the unclean ones. -/
def State.scanNext (s : State) : State :=
  match s.store.mount with
  | none => s
  | some m =>
    match m.todo with
    | k :: _ => s.mountRead k 0 4096
    | [] =>
      let s := m.unclean.foldl (fun s k => s.modSector k fun v => { v with state := .out }) s
      ((s.modMount fun m => { m with step := .erase, erasing := m.unclean }).requestErase .unclean
        (m.unclean.map storeSector)).post .mountNext

/-- Mount's read has ended. -/
def State.mountReadEnded (s : State) (data : Bytes) : State :=
  match s.store.mount with
  | none => s
  | some m =>
    match m.step, m.todo with
    | .headers, _ :: rest =>
      let hs := m.headers ++ [Header.ofBytes data]
      if rest.isEmpty then
        (s.modMount fun m =>
          { m with
            headers := hs, step := .records, offset := 16
            todo := (List.range 64).filter fun k => (hs.getD k ⟨none, none, none⟩).hasRecords }).beginRecord
          State.resolveMount
      else (s.modMount fun m => { m with headers := hs, todo := rest }).readHeader
    | .records, k :: _ => s.recordRead m k data
    | .scan, k :: rest =>
      (s.modMount fun m =>
        { m with todo := rest, unclean := if scanUnclean data then m.unclean ++ [k] else m.unclean }).scanNext
    | _, _ => s

/-- The erase of an unclean sector has reported (R35). -/
def State.uncleanErased (s : State) (k : Nat) (ok : Bool) : State :=
  let s := if ok then s.modSector k fun _ => ⟨.erased, none, none, 16, 0⟩ else s
  (s.modMount fun m => { m with erasing := m.erasing.filter fun x => !decide (x = k) }).post .mountNext

/-- The erase count given to a blank one: one more than the highest read from any sector, or 1 (R35). -/
def Mount.blankCount (m : Mount) : Nat := 1 + m.headers.foldl (fun n h => max n (h.count.getD 0)) 0

/-- Every ERASED sector with a blank count has it programmed (R35). -/
def State.programBlanks (s : State) (m : Mount) : State :=
  let ks := (s.sectorsIn .erased).filter fun k => (s.sector k).count.isNone
  (ks.foldl (fun s k =>
    (s.modSector k fun v => { v with count := some m.blankCount }).programCount k m.blankCount .mount) s).modMount fun m =>
      { m with step := .counts }

/-- The next sector that reads RECLAIMING is resumed, in order of sector sequence (R35). -/
def State.resumeReclaims (s : State) : Option State :=
  match leastBy (fun k => (s.sector k).seq.getD 0) (s.sectorsIn .reclaiming) with
  | none => none
  | some k => some (s.reclaimRead ⟨k, 16, .reading, true⟩)

/-! ### Handing out (R36) -/

/-- The payload of the current record of a type and id, as it was resolved, wherever a resumed reclaim has copied it to since;
empty when the id is absent, its record dropped by such a reclaim among the cases (R34, R36, R37). -/
def State.handed (s : State) (t : RecType) (id : Nat) : Bytes :=
  if (s.mirrorAt t id).isSome then
    ((s.store.mount.bind fun m => m.resolved.find? fun f => decide (f.type = t) && decide (f.id = id)).map (·.payload)).getD []
  else []

/-- Of two entries with one label or name, the one with the lower store sequence loses (R134, R162). -/
def State.outranked (s : State) (t : RecType) (id id' : Nat) : Bool :=
  match s.mirrorAt t id, s.mirrorAt t id' with
  | some a, some b => decide (a.seq < b.seq)
  | _, _ => false

/-- The Key Manager builds its table (R134), with OWNER keys in OWNED alone (R149, R164). -/
def State.handKeys (s : State) : State :=
  let es := ((List.range 48).map (· + 1)).filterMap fun h =>
    let p := s.handed .key h
    if p.isEmpty then none else some (KeyEntry.ofPayload h p)
  let lost := fun (e : KeyEntry) => es.any fun x => decide (x.label = e.label) && s.outranked .key e.handle x.handle
  let s := s.modKeys fun k => { k with
    table := es.filter fun e => !lost e && !(decide (e.cls = .owner) && !decide (s.creds.lifecycle = .owned))
    gens := (List.range 48).map fun i =>
      match (es.find? fun e => decide (e.handle = i + 1) && !lost e) with
      | some e => e.gen
      | none => 0 }
  (es.filter lost).foldl (fun s e => s.submitRemoval .key e.handle .mountRemoval) s

/-- The Credential Manager builds its table, with OWNER entries in OWNED alone, so with none while a wipe is open (R162, R164,
R179). -/
def State.handCreds (s : State) : State :=
  let es := (List.range 32).filterMap fun i =>
    let p := s.handed .cred i
    if p.isEmpty then none else some (CredEntry.ofPayload i p)
  let lost := fun (e : CredEntry) => es.any fun x => decide (x.name = e.name) && s.outranked .cred e.index x.index
  let s := s.modCreds fun c => { c with
    table := es.filter fun e => !lost e && !(decide (e.cls = .owner) && !decide (c.lifecycle = .owned)) }
  (es.filter lost).foldl (fun s e => s.submitRemoval .cred e.index .mountRemoval) s

/-- A settings record's value, if it has a payload (R111). -/
def settingsOf (p : Bytes) : Option Settings := if p.isEmpty then none else some (Settings.ofBytes p)

/-- Settings, lifecycle and the wipe's journal (R111, R164, R179). -/
def State.handOwner (s : State) : State :=
  let journal := s.handed .journalWipe 0
  let recorded := lifecycleOf (s.handed .lifecycle 0)
  s.modCreds fun c => { c with
    factorySettings := settingsOf (s.handed .settingsFactory 0)
    ownerSettings := if journal.isEmpty then settingsOf (s.handed .settingsOwner 0) else none
    recorded := recorded
    wiping := !journal.isEmpty
    wipeCause := WipeCause.ofPayload journal
    lifecycle := if s.bank.view.closed then (if journal.isEmpty then recorded.getD .unowned else .unowned) else .manufacture }

/-- The Slot Table, the boot-failure counts, the open commit journal and the epoch (R36, R67, R90, R117). -/
def State.handRest (s : State) : State :=
  let s := SlotId.all.foldl (fun s i => s.putSlot i (.ofPayload (s.handed .slot i.id))) s
  let s := Master.all.foldl (fun s m => s.modSup m fun r => { r with bootFailures := leNat (s.handed .bootfail m.idx) }) s
  let j := s.handed .journalCommit 0
  let s := s.modImage fun g => { g with journal := if j.isEmpty then none else some (.ofPayload j) }
  s.modStore fun st => { st with epoch := leNat (s.handed .epoch 0) }

/-- R36: the owners build their tables; the DEVICE derivations follow (R49, R55). -/
def State.handOut (s : State) : State :=
  let s := s.handOwner.handRest.handKeys.handCreds
  (s.modMount fun m => { m with step := .deviceKeys }).submitJob
    (.mk' .store (.deriveScalar (ascii "LJ330 ATTEST")) .seed .deviceAttest)

/-- A DEVICE key (R130). -/
def deviceKey (h : Nat) (kind : KeyKind) (usages : Byte) (label : String) (scalar pub : Bytes) : KeyEntry :=
  { handle := h, gen := 0, cls := .device, kind := kind, usages := usages, users := 7, binding := .none, label := ascii label,
    limit := none, destroying := false, material := scalar, pub := pub }

def State.addDeviceKey (s : State) (e : KeyEntry) : State := s.modKeys fun k => { k with table := e :: k.table }

def State.attestDerived (s : State) (scalar pub : Bytes) : State :=
  (s.addDeviceKey (deviceKey 1 .sign 0x20 "DEVICE ATTEST" scalar pub)).submitJob
    (.mk' .store (.deriveScalar (ascii "LJ330 IDENTITY")) .seed .deviceIdentity)

/-- Step 1 of R36 begins when both keys are held. -/
def State.identityDerived (s : State) (scalar pub : Bytes) : State :=
  let s := s.addDeviceKey (deviceKey 2 .agree 0x22 "DEVICE IDENTITY" scalar pub)
  let s := s.modMount fun m => { m with step := .commit }
  match s.image.journal with
  | some j => s.startReplay j
  | none => s.post .mountNext

/-! ### Slot fix-ups (R82) -/

/-- The reason a slot is failed at mount, if any. -/
def State.fixUp (s : State) (i : SlotId) : Option Reason :=
  let e := s.slot i
  let v := s.bank.view
  let k := manifestSigner e.mf
  let held := decide (e.state = .ready) || decide (e.state = .trial) || decide (e.state = .current) || decide (e.state = .fallback)
  if s.slotRetired i then (if e.state = .failed ∧ e.reason = some .damaged then none else some .damaged)
  else if e.state.staging then some .interrupted
  else if held && (v.isRevoked k || !v.present k) then some .revokedLater
  else if held && decide (manifestLevel e.mf < v.floors.get i.master) then some .belowFloor
  else none

def State.fixUps (s : State) : State :=
  let s := SlotId.all.foldl (fun s i =>
    match s.fixUp i with
    | some r => s.failSlot i r
    | none => s) s
  Master.all.foldl (fun s m =>
    match s.currentSlot m, (s.findSlot m fun e => decide (e.state = .fallback)) with
    | none, some f => s.changeSlot f { s.slot f with state := .current }
    | _, _ => s) s

/-! ### The last steps (R36) -/

/-- Step 4: OWNER-class records are removed unless LIFECYCLE says OWNED; a wipe whose removal phase mount has gone on from
waits for them (R178, R179). -/
def State.removeOwners (s : State) : State :=
  if s.creds.recorded = some .owned then s
  else
    let f : WriteFor := if s.creds.wipe = .removal then .wipeItem else .mountRemoval
    let s := (s.store.mirror.filter fun e => e.ownerClass).foldl (fun s e =>
      if s.writePending e.type e.id then s else s.submitRemoval e.type e.id f) s
    (s.modKeys fun k => { k with table := k.table.filter fun e => !decide (e.cls = .owner) }).modCreds fun c =>
      { c with table := c.table.filter fun e => !decide (e.cls = .owner), ownerSettings := none }

/-- Step 5. DESIGN CHOICE (log entry 12): a retirement reported while step 5 writes is written by a further RETIRED record before
the EPOCH record, and one reported while that is written as soon as the store is MOUNTED. -/
def State.writeHeld (s : State) : State :=
  if s.store.retiredHeld then
    (s.modStore fun st => { st with retiredHeld := false }).submitWrite
      ⟨.retired, 0, retiredPayload s.store.retiredList, true, .retiredList⟩
  else s

/-- Step 6. DESIGN CHOICE (log entry 36): the epoch after 4,294,967,295 is 0, since its record holds 4 bytes. -/
def State.writeEpoch (s : State) : State :=
  let n := (s.store.epoch + 1) % 4294967296
  (s.modStore fun st => { st with epoch := n }).submitWrite ⟨.epoch, 0, epochPayload n, true, .epoch⟩

/-- The generations of handles no key occupies (R129). -/
def State.setGens (s : State) : State :=
  s.modKeys fun k => { k with gens := (List.range 48).map fun i =>
    if i < 2 then 0
    else
      match (k.table.find? fun e => decide (e.handle = i + 1)) with
      | some e => e.gen
      | none => BitVec.ofNat 8 s.store.epoch }

/-- Lockouts start anew when the store is MOUNTED (R167). -/
def State.restartLockouts (s : State) : State :=
  s.modCreds fun c => { c with table := c.table.map fun e =>
    match e.value with
    | .verifier _ _ => { e with lockout := s.lockoutFor e.failures none }
    | .secret _ => e }

/-- The button detector leaves WAITING (R175). -/
def State.startButton (s : State) : State :=
  s.modCreds fun c =>
    if c.pressed then { c with button := .holding, buttonDeadline := some (s.ms + 10000) }
    else { c with button := .released, buttonDeadline := none }

/-- The store is MOUNTED (R36): the masters' releases begin, and a FUSE-IDENTITY that formatted is answered (R51, R52). -/
def State.finishMount (s : State) : State :=
  let r := s.store.mount.bind (·.formatting)
  let s := s.modStore fun st => { st with cond := .mounted, mount := none }
  let s := s.setGens.restartLockouts.startButton.writeHeld
  let s := match r with
    | some r => s.answer r .ok (le 8 s.bank.view.serial.toNat)
    | none => s
  (Master.all.foldl (fun s m => s.post (.tryChoice m)) s).post .reclaimTest

/-- A sector of the rotation is out of it until the result of its erase: it is neither ERASED again nor retired (R25). -/
def State.eraseAwaited (s : State) : Bool := (s.sectorsIn .out).any fun k => !s.ctl.retired.contains (storeSector k)

/-- The forced reclaim of the wipe's replay waits for an ERASED sector that no reclaim that could start now and no erase under way
can bring (R179, log entry 30). -/
def State.wipeStuck (s : State) : Bool :=
  let idle := match s.store.reclaim with
    | none => s.pickVictim.isNone
    | some r => decide (r.step = .waitErased)
  decide (s.creds.wipe = .erasure) && idle && !s.eraseAwaited

/-- Mount goes on to its next step when the one before it has ended (R36). -/
def State.mountNext (s : State) : State :=
  match s.store.mount with
  | none => s
  | some m =>
    if s.store.quiet = false then s
    else
      match m.step with
      | .key => s
      | .headers => s
      | .records => s
      | .recordTag => s
      | .repair =>
        (s.modMount fun m => { m with step := .scan, todo := s.sectorsIn .erased }).scanNext
      | .scan => s
      | .erase => if m.erasing.isEmpty then (s.programBlanks m).post .mountNext else s
      | .counts => (s.modMount fun m => { m with step := .reclaims }).post .mountNext
      | .reclaims =>
        match s.store.reclaim with
        | some r => if r.resumed then s else s.handOut
        | none =>
          match s.resumeReclaims with
          | some t => t
          | none => s.handOut
      | .deviceKeys => s
      | .commit =>
        if s.image.replay.isSome then s
        else
          let s := s.modMount fun m => { m with step := .wipe }
          (if s.creds.wiping then s.wipeRemoval else s).post .mountNext
      | .wipe =>
        if s.creds.wiping && !(m.wipeFailed || s.wipeStuck) then s
        else ((s.modMount fun m => { m with step := .fixUps }).fixUps).post .mountNext
      | .fixUps => ((s.modMount fun m => { m with step := .ownerRemoval }).removeOwners).post .mountNext
      | .ownerRemoval => ((s.modMount fun m => { m with step := .retirements }).writeHeld).post .mountNext
      | .retirements =>
        if s.store.retiredHeld then s.writeHeld.post .mountNext else (s.modMount fun m => { m with step := .epoch }).writeEpoch
      | .epoch => s

/-- A removal record made by mount has ended (R36, R134, R162). DESIGN CHOICE (log entry 64): one of R162, or of step 4 of R36, that
failed is submitted again as one of R134 is. -/
def State.mountRemovalWritten (s : State) (w : Write) (res : WriteResult) : State :=
  if res = .durable then s else s.retryLater w.type w.id true .mountRemoval

/-! ### Formatting (R33, R52) -/

/-- Every store sector is to be erased (R52). DESIGN CHOICE (log entry 60): again at the DONE of a second IDENTITY job. -/
def State.startFormat (s : State) (r : Req) : State :=
  (s.modStore fun st => { st with format := some (List.range 64, r) }).requestErase .formatting
    ((List.range 64).map storeSector)

/-- A sector of the formatting is done with: the mount starts after the last. -/
def State.formatted (s : State) (k : Nat) : State :=
  match s.store.format with
  | none => s
  | some (ks, r) =>
    let left := ks.filter fun x => !decide (x = k)
    if left.isEmpty then (s.modStore fun st => { st with format := none }).startMount (some r)
    else s.modStore fun st => { st with format := some (left, r) }

/-- The erase of a sector of the formatting has reported. -/
def State.formatErased (s : State) (k : Nat) (ok : Bool) : State :=
  if ok then s.programCount k 1 (.formatCount k) else s.formatted k

end Sys2Proof.Machine
end

