-- ==== Sys2Proof/Machine/Settle.lean ====
section
/-! DEFINITION. How a step of the part ends: each notice a block has raised is handled, then the notices it raised in turn,
until none is left (log entries 3 and 16). `act` makes a step of it. -/

namespace Sys2Proof.Machine

/-! ### Keys (R136, R138, R146) -/

/-- A new key's material exists: a VOLATILE key is PRESENT at once, another is written first (R136). -/
def State.completeKey (s : State) (r : Req) (k : NewKey) (material pub : Bytes) (depth : Option Nat) : State :=
  let e := s.entryOf k material pub
  if k.cls = .volatile then s.installKey r e depth
  else (s.setWork r .other).submitWrite ⟨.key, e.handle, e.payload, false, .keyNew r e depth⟩

/-- The KEY record of a new key has been written, or not (R136, R177). -/
def State.keyWritten (s : State) (r : Req) (e : KeyEntry) (depth : Option Nat) (res : WriteResult) : State :=
  match res with
  | .durable =>
    if e.cls = .owner ∧ s.creds.lifecycle ≠ .owned then
      ((s.unholdKey e.handle).removeOwned .key e.handle).refuse r .conflict
    else s.installKey r e depth
  | .noSpace => (s.unholdKey e.handle).refuse r res.status
  | .fault => (s.unholdKey e.handle).refuse r res.status

/-- The removal record of a destroyed key has ended (R134, R138). -/
def State.keyRemoved (s : State) (h : Nat) (g : Byte) (res : WriteResult) : State :=
  let s := if res = .durable then s else s.retryLater .key h true (.keyRemoval h g)
  (s.modKeys fun k => { k with destroys := k.destroys.map fun d =>
    if d.handle = h ∧ d.gen = g ∧ d.writing = true then { d with writing := false, status := res.status } else d }).finishDestroys

/-- The push is made, unless the stack has been emptied since the take (R146). -/
def State.pushEntry (s : State) (r : Req) (h : Nat) (g : Byte) (depth : Nat) (secret label : Bytes) : State :=
  let st := s.keys.stackOf.get r.port
  if (s.keyFound h g).isSome = true ∧ st.length = depth ∧ (st.all fun e => decide (e.rootHandle = h) && decide (e.rootGen = g)) = true
  then
    (s.modKeys fun k => { k with stackOf := k.stackOf.set r.port (st ++ [⟨secret, h, g, label⟩]) }).answer r .ok
      [BitVec.ofNat 8 (depth + 1)]
  else s.refuse r .notFound

/-- The status of a job that computed nothing (R57, R61). -/
def jobStatus : JobResult → Status
  | .notFound => .notFound
  | .notPermitted => .notPermitted
  | .badPeer => .badRequest
  | _ => .state

/-! ### Results of jobs, by what the WORKING request waits for -/

def State.requestJob (s : State) (r : Req) (res : JobResult) : State :=
  match s.workOf r, res with
  | .stageDigest target replace m, .digest d =>
    if s.signerMatches m d then
      (s.setWork r (.stageVerify target replace m)).submitJob
        (.mk' (.port r.port) (.verify (manifestKey m) (.text (m.take 112)) (manifestSignature m)) .none (.request r))
    else s.refuse r .badRequest (some .signature)
  | .stageVerify target replace m, .verdict valid =>
    if valid then s.stageVerified r target replace m else s.refuse r .badRequest (some .signature)
  | .keyCreate k, .keyPair scalar pub => s.completeKey r k scalar pub none
  | .sign, .signature b => s.answer r .ok b
  | .sign, x => s.refuse r (jobStatus x)
  | .agree none, .secret x => s.answer r .ok x
  | .agree (some k), .secret x => s.installKey r (s.entryOf k x []) none
  | .agree none, x => s.refuse r (jobStatus x)
  | .agree (some k), x => (s.unholdKey k.handle).refuse r (jobStatus x)
  | .mac, .mac b => s.answer r .ok b
  | .mac, x => s.refuse r (jobStatus x)
  | .pushDerive h g depth label, .secret x =>
    (s.setWork r (.pushDigest h g depth x)).submitJob (.mk' (.port r.port) (.digest none label true) .none (.request r))
  | .pushDerive _ _ _ _, x => s.refuse r (jobStatus x)
  | .pushDigest h g depth secret, .digest d => s.pushEntry r h g depth secret d
  | .extend cell digest, .digest v => s.extendDone r cell digest v
  | .attest statement, .signature b => s.answer r .ok (statement ++ b)
  | .attest _, x => s.refuse r (jobStatus x)
  | .verify name serial, .digest d => s.judgeVerify r name serial d none fun s _ => s
  | .claimCheck serial owner, .digest d =>
    s.judgeVerify r nameClaim serial d (some owner) fun s owner => s.claimStep2 r owner
  | .claimDigest i salt, .digest d => s.claimDigested r i salt d
  | .credDigest e salt isNew, .digest d => s.putCred r { e with value := .verifier salt d } isNew
  | _, _ => s

/-- A job's result is handed to the block that submitted it; an orphaned one changes nothing (R56, R66). -/
def State.jobEnded (s : State) (j : Job) (res : JobResult) : State :=
  if j.orphaned then s
  else
    match j.for_, res with
    | .request r, x => s.requestJob r x
    | .stagingCheck c, x => s.checkJobEnded c x
    | .releaseCheck m c, x => s.releaseJobEnded m c x
    | .cell0 m c, x => s.cell0Ended m c x
    | .writeTag, .mac t => s.writeTagged t
    | .reclaimTag, .mac t => s.reclaimTagged t
    | .mountTag, .mac t => s.mountTagged t
    | .recordKey, .secret k => s.keyDerived k
    | .deviceAttest, .keyPair scalar pub => s.attestDerived scalar pub
    | .deviceIdentity, .keyPair scalar pub => s.identityDerived scalar pub
    | _, _ => s

/-! ### Flash and fuse results -/

/-- The outstanding program of the Record Store has completed. DESIGN CHOICE (log entry 17): a FAULT of the program of an erase
count, or of mount's program of a sector header to FULL (R35), is passed over. -/
def State.storeProgEnded (s : State) (res : ProgResult) : State :=
  match s.popProg with
  | (none, s) => s
  | (some p, s) =>
    let s := if res = .ok then s.noteSuperseded p else s
    match p.for_ with
    | .write => s.writeProgEnded (decide (res = .ok))
    | .reclaimMark =>
      match s.store.reclaim with
      | some r => s.reclaimRead r
      | none => s
    | .count k => s.gainErased k (s.nextCount k)
    | .reclaimCount k => (s.gainErased k (s.nextCount k)).endReclaim k
    | .formatCount k => s.formatted k
    | .mount => s.victimSettled

/-- An erase request has its result for a sector (R14, R25, R30, R35, R52, R74, R85). -/
def State.eraseEnded (s : State) (f : EraseFor) (c : Sector) (ok : Bool) : State :=
  match f with
  | .image t => s.imageErased t c ok
  | .reclaim => s.victimErased c.index ok
  | .rotation => if ok then s.programCount c.index (s.nextCount c.index) (.count c.index) else s.checkNamed
  | .unclean => s.uncleanErased c.index ok
  | .formatting => s.formatErased c.index ok

/-- The contents of an internal read go to its requester (R2). -/
def State.readDone (s : State) (r : Requester) (data : Bytes) : State :=
  match r with
  | .image => s.checkReadEnded data
  | .supervisor m => s.releaseReadEnded m data
  | .store =>
    if s.store.reclaim.any fun x => decide (x.step = .reading) then s.reclaimReadEnded data else s.mountReadEnded data

/-- A fuse job submitted for a manufacture request has ended (R51, R53, R54). -/
def State.manufactureFuse (s : State) (r : Req) (j : FuseJob) (ok : Bool) : State :=
  match j with
  | .identity _ _ => if ok then s.startFormat r else s.refuse r .fuseFault
  | .signer _ _ => if ok then s.answer r .ok [] else s.refuse r .fuseFault
  | .close =>
    if ok then s.submitWrite ⟨.lifecycle, 0, lifecyclePayload .unowned, true, .closeLifecycle r⟩ else s.refuse r .fuseFault
  | .revoke _ => s
  | .counter _ _ => s

def State.fuseEnded (s : State) (src : FuseSource) (j : FuseJob) (ok : Bool) : State :=
  match src with
  | .request r => s.manufactureFuse r j ok
  | .commit => s.commitFuse ok
  | .completion => s.completionFuse ok
  | .replay => s.replayFuse ok

/-! ### Results of writes -/

/-- The answer of ANNOUNCE: served slot, served state, and the token of a trial (R101). -/
def State.announced (s : State) (r : Req) : State :=
  let m := s.sup r.port
  s.answer r .ok ([m.served.code, servedStateCode m.servedState] ++ (match m.trial with
    | some w => w.token
    | none => []))

/-- The removal of a BOOTFAIL record has ended (R101, R103). -/
def State.bootFailCleared (s : State) (m : Master) (r : Option Req) (res : WriteResult) : State :=
  let s := if res = .durable then s.modSup m fun x => { x with bootFailures := 0 }
    else s.retryLater .bootfail m.idx true (.bootFailAgain m)
  match r with
  | some r => s.announced r
  | none => s

/-- The result of a write goes to its owner. -/
def State.writeResult (s : State) (w : Write) (res : WriteResult) : State :=
  let s := if res = .durable then s.retryMet w else s
  match w.for_ with
  | .stageBegin r i m => if res = .durable then s.stageBegun r i m else s.refuseWrite r res
  | .slotTaken i c => s.slotWritten i c res
  | .slotAgain i c => s.slotWritten i c res
  | .damage r i => s.damageWritten r i res
  | .stageEndFailed r i reason => (s.slotWritten i false res).stageEndAnswer r .failed (some reason)
  | .stageReady r i => s.readyWritten r i res
  | .tryMark r i now => s.tryMarkWritten r i now res
  | .abort r i => s.abortWritten r i res
  | .blank r i => s.blankWritten r i res
  | .trialBoot i => s.trialBootWritten i res
  | .failover i => s.failoverWritten i res
  | .promotion i => s.slotWritten i false res
  | .bootFail m n limit => s.bootFailWritten m n limit res
  | .bootFailClear m r => s.bootFailCleared m r res
  | .bootFailAgain m => s.bootFailCleared m none res
  | .settings owner v r => s.settingsWritten owner v r res
  | .keyNew r e depth => s.keyWritten r e depth res
  | .keyRemoval h g => s.keyRemoved h g res
  | .credCount i then_ => s.countWritten i then_ res
  | .credPut r e isNew => s.credPutWritten r e isNew res
  | .credRemoval i r => s.credRemovalWritten i r res
  | .claimOwner r e => s.claimOwnerWritten r e res
  | .claimLifecycle r e => s.claimLifecycleWritten r e res
  | .closeLifecycle r =>
    (if res = .durable then s.modCreds fun c => { c with recorded := some .unowned } else s).answer r .ok []
  | .wipeOpen r => s.wipeOpened r res
  | .wipeItem => s.wipeItemWritten w res
  | .wipeClose => s.wipeClosed res
  | .journalOpen => s.journalWritten res
  | .journalClose => s.journalClosed res
  | .retiredList => if res = .durable then s else s.retryLater .retired 0 false .retiredList
  | .mountRemoval => s.mountRemovalWritten w res
  | .reclaimCopy => s
  | .epoch => s
  | .closeSector _ => s

/-- The master whose boot choice may have waited for a write (R94, R102). -/
def WriteFor.choiceMaster : WriteFor → Option Master
  | .bootFail m _ _ => some m
  | .failover i => some i.master
  | .promotion i => some i.master
  | .bootFailClear m _ => some m
  | .trialBoot i => some i.master
  | _ => none

/-- A write has ended: the next begins, and what waited for the end goes on. -/
def State.writeEnded (s : State) (w : Write) (res : WriteResult) : State :=
  let s := s.beginNext
  let s := match w.for_ with
    | .reclaimCopy => s.copyEnded res
    | .closeSector k => s.closeEnded k
    | .epoch => s.finishMount
    | _ => s
  let s := match w.for_.choiceMaster with
    | some m => s.post (.tryChoice m)
    | none => s
  let s := if w.type = .slot then s.slotWriteOver else s
  let close := match w.for_ with
    | .closeSector _ => true
    | _ => false
  let s := if res = .durable ∧ close = false then s.submitRetries else s
  s.post .wipeTest

/-! ### Handling notices -/

def State.handle (s : State) : Notice → State
  | .jobEnded j r => (s.jobEnded j r).post .mountNext
  | .engineNext => s.startHead
  | .programEnded r res =>
    match r with
    | .image => s.pageEnded res
    | .store => (s.storeProgEnded res).post .mountNext
    | .supervisor _ => s
  | .eraseEnded f c ok => (s.eraseEnded f c ok).post .mountNext
  | .sectorRetired c => s.noteRetired c
  | .fuseEnded src j ok => s.fuseEnded src j ok
  | .writeResult w res => s.writeResult w res
  | .writeEnded w res => (s.writeEnded w res).post .mountNext
  | .masterReset m f => s.masterReset m f
  | .eligible m => s.leaveRecovery m
  | .tryChoice m => s.tryChoice m
  | .commitNext => s.commitNext
  | .mountNext => s.mountNext
  | .reclaimTest => s.testReclaim
  | .wipeTest => s.wipeTest
  | .forcedDone => s.forcedDone

/-- Handles notices in order, those a notice raises before the ones that were waiting. -/
def State.settle : Nat → State → State
  | 0, s => s
  | n + 1, s =>
    match s.inbox with
    | [] => s
    | x :: rest =>
      let t := State.handle { s with inbox := [] } x
      State.settle n { t with inbox := t.inbox ++ rest }

/-- How many notices one step may handle; what a longer chain leaves, the next step handles first (log entry 16). -/
def settleBudget : Nat := 4096

/-- A step that other blocks hear of: what an earlier step has left, `f`, every notice, then STAT. The queue, the array and the
fuses are the state's own: only the commands that end a physical operation change the last two (R1, R38), and no block writes
STAT. -/
def act (f : State → State) (s : State) : Host.Outcome State Fault Refusal :=
  let t := State.settle settleBudget (f (State.settle settleBudget s))
  .next (State.updateStat { t with pending := s.pending, flash := s.flash, fuses := s.fuses, stat := s.stat })

/-- A step that no other block hears of: `f` and STAT. -/
def reply (f : State → State) (s : State) : Host.Outcome State Fault Refusal :=
  .next { f s with pending := s.pending, inbox := s.inbox, flash := s.flash, fuses := s.fuses, stat := s.stat }

end Sys2Proof.Machine
end

