-- ==== Sys2Proof/Machine/Completions.lean ====
section
/-! DEFINITION. Ends of operations under way: reads, programs, erases, fuse attempts, crypto jobs, and the steps a block takes
when its waits have ended. The commands that end a program, an erase or a fuse attempt change the array or the fuses, and
nothing else but a part reset does (R1, R38). One that ends an operation not under way changes nothing (log entry 1). -/

namespace Sys2Proof.Machine

/-- An internal read of a requester ends: the contents of its run are handed over (R2, R12). DESIGN CHOICE (log entry 3): the
array is arbitrated first, so a SUSPENDED batch resumes before the requester can submit its next read. -/
def State.internalRead (s : State) (r : Requester) : State :=
  match s.ctl.reads.find? fun x => decide (x.by_ = .internal r) with
  | none => s
  | some op => (s.endRead op).readDone r (memBytes s.flash op.run.start op.run.len)

/-- INTERNAL_READ_END. -/
def execInternalReadEnd (r : Requester) (s : State) : Host.Outcome State Fault Refusal := act (fun s => s.internalRead r) s

/-- The program the array is running, one that is not suspended (R13). -/
def FlashCtl.programming (c : FlashCtl) : Option ActiveProg := c.prog.filter fun p => !p.suspended

/-- The array after the active program has left its bits (R3, R4). -/
def State.programmedBy (s : State) (p : ActiveProg) (stuck : Bytes) : State :=
  { s with flash := memProgram s.flash p.op.addr p.op.data stuck }

/-- PROGRAM_END: the read-back decides OK or FAULT, FAULT too where the time limit has been reached (R3). DESIGN CHOICE (log entry
42): the array changes here and at no earlier moment, so a boot read that has suspended the program (R13) sees the bytes from
before it. -/
def execProgramEnd (stuck : Bytes) (s : State) : Host.Outcome State Fault Refusal :=
  match s.ctl.programming with
  | none => act id s
  | some p =>
    let ok := decide (p.active < programLimit) && programGood s.flash p.op.addr p.op.data stuck
    act (fun t => t.endProgram ok) (s.programmedBy p stuck)

/-- PROGRAM_TIME_LIMIT: the active time reaches 2 ms, and the program completes with FAULT (R3). -/
def execProgramTimeLimit (stuck : Bytes) (s : State) : Host.Outcome State Fault Refusal :=
  match s.ctl.programming with
  | none => act id s
  | some p => act (fun t => (t.pass (programLimit - p.active)).endProgram false) (s.programmedBy p stuck)

/-- The array after the erase of a sector (R9). -/
def State.erasedBy (s : State) (x : Sector) (kept : List (Nat × Byte)) : State :=
  { s with flash := memErase x.base x.size (keptAt kept) s.flash }

/-- SECTOR_ERASE_END: the sector is ERASED if every location reads erased and the time limit has not been reached (R9). -/
def execSectorEraseEnd (kept : List (Nat × Byte)) (s : State) : Host.Outcome State Fault Refusal :=
  match s.ctl.erasing with
  | none => act id s
  | some (x, active) =>
    let t := s.erasedBy x kept
    act (fun t => t.decideSector (decide (active < eraseLimit x) && sectorErased t.flash x)) t

/-- ERASE_TIME_LIMIT: the erase is stopped, and the sector's outcome is an erase failure (R9). -/
def execEraseTimeLimit (kept : List (Nat × Byte)) (s : State) : Host.Outcome State Fault Refusal :=
  match s.ctl.erasing with
  | none => act id s
  | some (x, active) => act (fun t => (t.pass (eraseLimit x - active)).decideSector false) (s.erasedBy x kept)

/-- The fuses after an attempt that blew its fuse, or did not (R44). -/
def State.attempted (s : State) (f : FuseId) (blown : Bool) : State := if blown then { s with fuses := s.fuses.blow f } else s

/-- FUSE_ATTEMPT_END: the fuse is found blown, is retried, or has failed (R44 to R46). -/
def execFuseAttemptEnd (blown : Bool) (s : State) : Host.Outcome State Fault Refusal :=
  match s.bank.underAttempt with
  | none => act id s
  | some f => act (fun t => t.endAttempt blown) (s.attempted f blown)

/-- CRYPTO_JOB_END (R56). -/
def execCryptoJobEnd (s : State) : Host.Outcome State Fault Refusal := act State.endJob s

/-- FLASH_ARBITRATION: the service order, taken while the array is FREE (R12). The event that frees the array takes it at once,
so it finds work only when a gather window has passed meanwhile (log entry 3). -/
def execFlashArbitration (s : State) : Host.Outcome State Fault Refusal := act State.arbitrate s

/-- BOOT_CHOICE: the boot choice, when its waits have ended (R94, log entry 3). -/
def execBootChoice (m : Master) (s : State) : Host.Outcome State Fault Refusal := act (fun s => s.tryChoice m) s

/-- COMMIT_START: the first waiting commit starts once no commit remains (R115, R116, log entry 3). -/
def execCommitStart (s : State) : Host.Outcome State Fault Refusal := act State.commitNext s

end Sys2Proof.Machine
end

