-- ==== Sys2Proof/Machine/General.lean ====
section
/-! DEFINITION. The general requests: IDENTIFY (R189), MASTER-STATE (R110), ANNOUNCE (R101), RESTART (R107), SETTINGS-READ
(R113), SETTINGS-WRITE (R112), TRIAL-CHECK (R104, R106). -/

namespace Sys2Proof.Machine

/-! ### Reading a payload (R192) -/

/-- The master a byte names; an index outside 0..2 is answered BAD_REQUEST before the request's other tests (R192). -/
def State.withMaster (s : State) (r : Req) (b : Byte) (f : Master → State) : State :=
  match Master.ofIdx b.toNat with
  | none => s.refuse r .badRequest
  | some m => f m

/-- The slot a byte names; a number outside 0..1 is answered BAD_REQUEST (R192). -/
def State.withSlot (s : State) (r : Req) (b : Byte) (f : SlotNo → State) : State :=
  match SlotNo.ofIdx b.toNat with
  | none => s.refuse r .badRequest
  | some n => f n

/-- A yes-or-no byte outside 0..1 is answered BAD_REQUEST (R192). -/
def State.withFlag (s : State) (r : Req) (b : Byte) (f : Bool → State) : State :=
  if b = 0 then f false else if b = 1 then f true else s.refuse r .badRequest

/-- APP may name any master; RADIO and LINE only themselves (R107, R110, R156). -/
def mayName (m target : Master) : Bool := decide (m = .app) || decide (m = target)

/-! ### IDENTIFY and MASTER-STATE -/

/-- The IDENTIFY answer (R189, 11.8). -/
def State.identity (s : State) : Bytes :=
  le 2 0x0330 ++ [2] ++ le 8 s.bank.view.serial.toNat ++ [s.creds.lifecycle.code, bit s.creds.wiping, s.resetCause.code] ++
    le 4 s.epochShown ++ [BitVec.ofNat 8 s.store.retiredList.length] ++ le 2 (min 65535 s.store.integrity) ++
    [bit s.bank.pendingWork.isSome]

/-- IDENTIFY. -/
def execIdentify (m : Master) (tag : Byte) (payload : Bytes) (s : State) : Host.Outcome State Fault Refusal :=
  reply (fun s => s.request m .identify tag payload fun s r => s.answer r .ok s.identity) s

/-- The MASTER-STATE answer (R110, 11.8). -/
def MasterRec.report (r : MasterRec) : Bytes :=
  [r.phaseCode, holdCode r.hold, r.served.code, servedStateCode r.servedState, r.fault.code, BitVec.ofNat 8 r.bootFailures] ++
    (match r.trial with
     | some w => [BitVec.ofNat 8 w.good, BitVec.ofNat 8 w.errors]
     | none => [0xFF, 0xFF])

/-- MASTER_STATE: the fault reason is cleared after the answer is composed (R110). -/
def execMasterState (m : Master) (tag : Byte) (payload : Bytes) (s : State) : Host.Outcome State Fault Refusal :=
  reply (fun s => s.request m .masterState tag payload fun s r =>
    s.withMaster r (byteAt 0 payload) fun target =>
      s.withFlag r (byteAt 1 payload) fun clear =>
        if mayName m target then
          let s := s.answer r .ok (s.sup target).report
          if clear then s.modSup target fun x => { x with fault := .none } else s
        else s.refuse r .notPermitted) s

/-! ### ANNOUNCE and RESTART -/

/-- ANNOUNCE taken (R101). -/
def State.announce (s : State) (m : Master) (r : Req) : State :=
  let x := s.sup m
  if x.phase = .booting ∧ x.window = some .open then
    let s := s.modSup m fun x => { x with phase := .running, window := none, contact := none }
    let s := if x.servedState = some .trial then s.startTrial m else s
    if x.bootFailures = 0 then s.announced r
    else (s.setWork r .other).submitRemoval .bootfail m.idx (.bootFailClear m (some r))
  else s.refuse r .state

/-- ANNOUNCE. -/
def execAnnounce (m : Master) (tag : Byte) (payload : Bytes) (s : State) : Host.Outcome State Fault Refusal :=
  act (fun s => s.request m .announce tag payload fun s r => s.announce m r) s

/-- RESTART taken: a master reset, or the end of a recovery hold (R98, R107). -/
def State.restart (s : State) (m target : Master) (r : Req) : State :=
  let s :=
    if (s.sup target).phase = .held then s.leaveRecovery target
    else s.masterReset target (if target = m then none else some .restarted)
  s.answer r .ok []

/-- RESTART. -/
def execRestart (m : Master) (tag : Byte) (payload : Bytes) (s : State) : Host.Outcome State Fault Refusal :=
  act (fun s => s.request m .restart tag payload fun s r =>
    s.withMaster r (byteAt 0 payload) fun target =>
      if mayName m target then s.restart m target r else s.refuse r .notPermitted) s

/-! ### Settings -/

/-- The source of the effective settings: OWNER 0, FACTORY 1, DEFAULT 2 (R113, 11.8). -/
def CredMgr.settingsSource (c : CredMgr) : Byte :=
  if c.ownerSettings.isSome then 0 else if c.factorySettings.isSome then 1 else 2

/-- SETTINGS-READ taken (R113). -/
def State.settingsRead (s : State) (r : Req) (which : Byte) : State :=
  let record := fun (v : Option Settings) (source : Byte) =>
    match v with
    | some v => s.answer r .ok (source :: v.bytes)
    | none => s.refuse r .notFound
  if which = 0 then s.answer r .ok (s.creds.settingsSource :: s.settings.bytes)
  else if which = 1 then record s.creds.factorySettings 1
  else if which = 2 then record s.creds.ownerSettings 0
  else s.refuse r .badRequest

/-- SETTINGS_READ. -/
def execSettingsRead (m : Master) (tag : Byte) (payload : Bytes) (s : State) : Host.Outcome State Fault Refusal :=
  reply (fun s => s.request m .settingsRead tag payload fun s r => s.settingsRead r (byteAt 0 payload)) s

/-- SETTINGS-WRITE taken (R112). -/
def State.settingsWrite (s : State) (m : Master) (r : Req) (payload : Bytes) : State :=
  let v := Settings.ofBytes payload
  let owner := decide (s.creds.lifecycle = .owned)
  if owner && !s.granted m then s.refuse r .notPermitted
  else if v.inRange = false then s.refuse r .badRequest
  else
    (s.setWork r .other).submitWrite
      ⟨if owner then .settingsOwner else .settingsFactory, 0, v.bytes, false, .settings owner v r⟩

/-- SETTINGS_WRITE. -/
def execSettingsWrite (m : Master) (tag : Byte) (payload : Bytes) (s : State) : Host.Outcome State Fault Refusal :=
  act (fun s => s.request m .settingsWrite tag payload fun s r => s.settingsWrite m r payload) s

/-! ### TRIAL-CHECK (R104, R106) -/

/-- The trial is confirmed: the window closes and the slot is to be committed (R106, R115). -/
def State.confirmTrial (s : State) (m : Master) (r : Req) : State :=
  let s := s.modSup m fun x => { x with trial := none }
  match (s.sup m).served with
  | .slot n =>
    (s.setWork r .other).causeCommit
      { master := m, slot := n, bodyDigest := manifestDigest (s.slot ⟨m, n⟩).mf, cause := .confirmation, req := r }
  | .rescue => s
  | .none => s

/-- A check that is good (R104). -/
def State.goodCheck (s : State) (m : Master) (r : Req) (w : TrialWindow) : State :=
  if w.good + 1 = 3 then s.confirmTrial m r
  else
    let t := newToken w.token (s.random 4)
    let w := { w with good := w.good + 1, last := s.ms, deadline := s.ms + w.max, token := t }
    ((s.drawn 4).modSup m fun x => { x with trial := some w }).answer r .ok (BitVec.ofNat 8 w.good :: t)

/-- A check that counts as an error (R104). -/
def State.badCheck (s : State) (m : Master) (r : Req) (w : TrialWindow) : State :=
  let t := newToken w.token (s.random 4)
  let w := { w with errors := w.errors + 1, token := t }
  let s := (s.drawn 4).modSup m fun x => { x with trial := some w }
  if w.errors < w.limit then s.answer r .trialError ([0, BitVec.ofNat 8 w.errors] ++ t) else s.failTrial m

/-- TRIAL-CHECK taken (R104). -/
def State.trialCheck (s : State) (m : Master) (r : Req) (token : Bytes) : State :=
  match (s.sup m).trial with
  | none => s.refuse r .state
  | some w => if w.min ≤ s.ms - w.last ∧ token = w.token then s.goodCheck m r w else s.badCheck m r w

/-- TRIAL_CHECK. -/
def execTrialCheck (m : Master) (tag : Byte) (payload : Bytes) (s : State) : Host.Outcome State Fault Refusal :=
  act (fun s => s.request m .trialCheck tag payload fun s r => s.trialCheck m r (slice 0 4 payload)) s

end Sys2Proof.Machine
end

