-- ==== Sys2Proof/Machine/Credential.lean ====
section
/-! DEFINITION. The credential requests: CLAIM (R169), CRED-VERIFY (R165, R166), CRED-PUT (R170, R171), CRED-GET (R172),
CRED-DELETE (R173), CRED-LIST and GRANT-CLOSE (R174), RELINQUISH (R176). -/

namespace Sys2Proof.Machine

/-- A secret offered to a verifier is 1..64 bytes (R165). -/
def secretForm (b : Bytes) : Bool := decide (1 ≤ b.length) && decide (b.length ≤ 64)

/-- A verifier is to be compared: locked out, or its DIGEST job is submitted with its serial noted (R165). -/
def State.verifyAgainst (s : State) (r : Req) (e : CredEntry) (salt secret : Bytes) (w : Work) : State :=
  match s.lockedFor e with
  | some left => s.refuseLocked r left
  | none => (s.setWork r w).submitJob (saltedJob r salt secret)

/-! ### CLAIM -/

/-- CLAIM taken (R169, log entry 31). -/
def State.claim (s : State) (r : Req) (secret owner : Bytes) : State :=
  if s.creds.wiping then s.refuse r .conflict
  else if secretForm owner = false ∨ 64 < secret.length then s.refuse r .badRequest
  else if s.freeCred.isNone then s.refuse r .full
  else
    match s.credNamed nameClaim with
    | none => s.claimStep2 r owner
    | some e =>
      match e.value with
      | .verifier salt _ =>
        if secretForm secret then s.verifyAgainst r e salt secret (.claimCheck e.serial owner) else s.refuse r .badRequest
      | .secret _ => s.refuse r .state

/-- CLAIM (R169). -/
def execClaim (m : Master) (tag : Byte) (payload : Bytes) (s : State) : Host.Outcome State Fault Refusal :=
  act (fun s => s.request m .claim tag payload fun s r =>
    s.claim r (takePrefixed payload).1 (takePrefixed payload).2) s

/-! ### CRED-VERIFY -/

/-- CRED-VERIFY taken (R165). -/
def State.credVerify (s : State) (m : Master) (r : Req) (name secret : Bytes) : State :=
  if secretForm secret = false then s.refuse r .badRequest
  else
    match s.credNamed name with
    | none => s.refuse r .notFound
    | some e =>
      match e.value with
      | .secret _ => s.refuse r .badRequest
      | .verifier salt _ =>
        if hasBit e.readers m.idx then s.verifyAgainst r e salt secret (.verify e.name e.serial)
        else s.refuse r .notPermitted

/-- CRED_VERIFY (R165, R166). -/
def execCredVerify (m : Master) (tag : Byte) (payload : Bytes) (s : State) : Host.Outcome State Fault Refusal :=
  act (fun s => s.request m .credVerify tag payload fun s r =>
    s.credVerify m r (takePrefixed payload).1 (takePrefixed payload).2) s

/-! ### CRED-PUT -/

/-- A reserved name carries its class and kind (R163). -/
def reservedOk (name : Bytes) (cls : CredClass) (secret : Bool) : Bool :=
  (!decide (name = nameOwner) || (decide (cls = .owner) && !secret)) &&
    (!decide (name = nameClaim) || (decide (cls = .factory) && !secret))

/-- Step 2 of R170; `secret` is kind SECRET. -/
def credForm (name : Bytes) (cls : CredClass) (secret : Bool) (readers : Byte) (grantRequired : Bool) (value : Bytes) : Bool :=
  decide (1 ≤ name.length) && decide (name.length ≤ 16) && decide (readers ≠ 0) && masterSetValid readers &&
    (if secret then decide (1 ≤ value.length) && decide (value.length ≤ 128) else secretForm value && !grantRequired) &&
    reservedOk name cls secret

/-- Whether a value is of kind SECRET. -/
def CredValue.isSecret : CredValue → Bool
  | .verifier _ _ => false
  | .secret _ => true

/-- A credential of the class may be put or deleted by the master (R170 step 1, R173). -/
def State.credAllowed (s : State) (m : Master) : CredClass → Bool
  | .factory => decide (m = .app) && decide (s.creds.lifecycle = .manufacture)
  | .owner => decide (s.creds.lifecycle = .owned) && s.granted m

/-- APP on the rescue image names a credential of a class its column does not (R190). -/
def State.credBarred (s : State) (m : Master) (cls : CredClass) : Bool :=
  decide (m = .app) && s.onRescue && decide (cls = .owner)

/-- The value of a put: a secret is written at once, a verifier's salted digest is computed first (R170). -/
def State.putValue (s : State) (r : Req) (e : CredEntry) (secret : Bool) (value : Bytes) (isNew : Bool) : State :=
  if secret then s.putCred r { e with value := .secret value } isNew
  else
    let salt := s.random 16
    ((s.drawn 16).setWork r (.credDigest e salt isNew)).submitJob (saltedJob r salt value)

/-- Step 3 of R170. -/
def State.credPlace (s : State) (r : Req) (e : CredEntry) (secret : Bool) (value : Bytes) : State :=
  if s.creds.holds.any fun h => decide (h.name = e.name) then s.refuse r .existsAlready
  else
    match s.credNamed e.name with
    | some old =>
      if old.cls ≠ e.cls ∨ old.value.isSecret ≠ secret then s.refuse r .existsAlready
      else if 4294967295 ≤ old.serial then s.refuse r .full
      else s.putValue r { e with index := old.index } secret value false
    | none =>
      match s.freeCred with
      | none => s.refuse r .full
      | some i => (s.holdCred r i e.name).putValue r { e with index := i } secret value true

/-- CRED-PUT taken, its class known (R170). -/
def State.credPut (s : State) (m : Master) (r : Req) (cls : CredClass) (kind readers : Byte) (grantRequired : Bool)
    (name value : Bytes) : State :=
  let secret := decide (kind = 1)
  if s.credAllowed m cls = false then s.refuse r .notPermitted
  else if 1 < kind.toNat ∨ credForm name cls secret readers grantRequired value = false then s.refuse r .badRequest
  else
    s.credPlace r
      { index := 0, name := name, cls := cls, readers := readers, grantRequired := grantRequired, value := .secret [],
        serial := 1, failures := 0, lockout := none } secret value

/-- CRED_PUT (R170, R171, R190). -/
def execCredPut (m : Master) (tag : Byte) (payload : Bytes) (s : State) : Host.Outcome State Fault Refusal :=
  act (fun s => s.request m .credPut tag payload fun s r =>
    match CredClass.ofCode (byteAt 0 payload) with
    | none => s.refuse r .badRequest
    | some cls =>
      if s.credBarred m cls then s.refuse r .notPermitted
      else
        s.withFlag r (byteAt 3 payload) fun grantRequired =>
          let nv := takePrefixed (payload.drop 4)
          s.credPut m r cls (byteAt 1 payload) (byteAt 2 payload) grantRequired nv.1 nv.2) s

/-! ### CRED-GET, CRED-DELETE, CRED-LIST -/

/-- The master is RUNNING on a slot that is CURRENT (R172). -/
def State.onCurrent (s : State) (m : Master) : Bool :=
  decide ((s.sup m).phase = .running) &&
    (match (s.sup m).served with
     | .slot n => decide ((s.slot ⟨m, n⟩).state = .current)
     | .rescue => false
     | .none => false)

/-- CRED-GET taken (R172). -/
def State.credGet (s : State) (m : Master) (r : Req) (name : Bytes) : State :=
  match s.credNamed name with
  | none => s.refuse r .notFound
  | some e =>
    match e.value with
    | .verifier _ _ => s.refuse r .badRequest
    | .secret v =>
      if hasBit e.readers m.idx && s.onCurrent m && (!e.grantRequired || s.granted m) then
        s.answer r .ok (le 4 e.serial ++ v)
      else s.refuse r .notPermitted

/-- CRED_GET (R172). -/
def execCredGet (m : Master) (tag : Byte) (payload : Bytes) (s : State) : Host.Outcome State Fault Refusal :=
  reply (fun s => s.request m .credGet tag payload fun s r => s.credGet m r payload) s

/-- CRED-DELETE taken (R171, R173, R190). -/
def State.credDelete (s : State) (m : Master) (r : Req) (name : Bytes) : State :=
  match s.credNamed name with
  | none => s.refuse r .notFound
  | some e =>
    if s.credBarred m e.cls then s.refuse r .notPermitted
    else if name = nameOwner then s.refuse r .state
    else if s.credAllowed m e.cls = false then s.refuse r .notPermitted
    else
      ((s.modCreds fun c => { c with
        table := c.table.filter fun x => !decide (x.index = e.index)
        deleted := c.deleted ++ s.replacing e.index }).setWork r .other).submitRemoval
        .cred e.index (.credRemoval e.index (some r))

/-- CRED_DELETE (R173). -/
def execCredDelete (m : Master) (tag : Byte) (payload : Bytes) (s : State) : Host.Outcome State Fault Refusal :=
  act (fun s => s.request m .credDelete tag payload fun s r => s.credDelete m r payload) s

/-- One entry of a CRED-LIST answer (11.8). -/
def CredEntry.listed (e : CredEntry) : Bytes :=
  [BitVec.ofNat 8 e.index, e.cls.code, e.value.kindCode] ++ le 4 e.serial ++ [BitVec.ofNat 8 e.name.length] ++ e.name

/-- The entries a master is shown, in order of index (R174). -/
def State.credsShown (s : State) (m : Master) : List CredEntry :=
  (List.range 32).filterMap fun i => (s.credAt i).filter fun e => decide (m = .app) || hasBit e.readers m.idx

/-- CRED_LIST (R174). -/
def execCredList (m : Master) (tag : Byte) (payload : Bytes) (s : State) : Host.Outcome State Fault Refusal :=
  reply (fun s => s.request m .credList tag payload fun s r =>
    let es := s.credsShown m
    s.answer r .ok (BitVec.ofNat 8 es.length :: es.flatMap (·.listed))) s

/-! ### GRANT-CLOSE and RELINQUISH -/

/-- GRANT_CLOSE (R168, R174). -/
def execGrantClose (m : Master) (tag : Byte) (payload : Bytes) (s : State) : Host.Outcome State Fault Refusal :=
  reply (fun s => s.request m .grantClose tag payload fun s r => (s.closeGrant m).answer r .ok []) s

/-- RELINQUISH taken (R176). -/
def State.relinquish (s : State) (m : Master) (r : Req) : State :=
  if s.granted m = false then s.refuse r .notPermitted
  else if s.creds.wipe ≠ .none then s.refuse r .conflict
  else (s.setWork r .other).startWipe .request (some r)

/-- RELINQUISH (R176). -/
def execRelinquish (m : Master) (tag : Byte) (payload : Bytes) (s : State) : Host.Outcome State Fault Refusal :=
  act (fun s => s.request m .relinquish tag payload fun s r => s.relinquish m r) s

end Sys2Proof.Machine
end

