-- ==== Sys2Proof/Machine/KeyRequests.lean ====
section
/-! DEFINITION. The key requests: KEY-CREATE (R135, R136), KEY-DESTROY (R137, R138), KEY-INFO and KEY-FIND (R140), KEY-PUBLIC
(R141), KEY-SIGN (R142), KEY-AGREE (R143), KEY-MAC (R144), DERIVE-PUSH (R146), DERIVE-POP (R147), DERIVE-STORE (R148). -/

namespace Sys2Proof.Machine

/-! ### Naming a key (R129, R190, R192) -/

/-- APP on the rescue image reaches keys of the classes its row names only (R190). -/
def State.keyBarred (s : State) (m : Master) (allowed : KeyClass → Bool) (cls : KeyClass) : Bool :=
  decide (m = .app) && s.onRescue && !allowed cls

/-- The classes KEY-PUBLIC's row names: DEVICE, and in MANUFACTURE also FACTORY (R190). -/
def State.publicOnRescue (s : State) (c : KeyClass) : Bool :=
  decide (c = .device) || (decide (c = .factory) && decide (s.creds.lifecycle = .manufacture))

/-- The class of the rows of KEY-CREATE, KEY-DESTROY, KEY-INFO and KEY-FIND (R190). -/
def factoryOnly (c : KeyClass) : Bool := decide (c = .factory)

/-- A handle of 1..48; handle 0 and one above 48 are answered BAD_REQUEST (R129). -/
def State.withHandle (s : State) (r : Req) (b : Byte) (f : Nat → State) : State :=
  if b = 0 ∨ 48 < b.toNat then s.refuse r .badRequest else f b.toNat

/-- The named key, when it is found (R129). -/
def State.withKey (s : State) (r : Req) (h : Nat) (g : Byte) (f : KeyEntry → State) : State :=
  match s.keyFound h g with
  | none => s.refuse r .notFound
  | some e => f e

/-- The tests of R133 made when a use of a table key is taken, then `f`. -/
def State.examined (s : State) (r : Req) (h : Nat) (g : Byte) (m : Master) (u : Usage) (f : State) : State :=
  match s.examineTaking h g m u with
  | some st => s.refuse r st
  | none => f

/-- A job of a port's request. -/
def portJob (m : Master) (r : Req) (op : CryptoOp) (key : KeyRef) : Job := .mk' (.port m) op key (.request r)

/-! ### KEY-CREATE -/

/-- A request that APP makes, or a master among the users it names (R135). -/
def mayMake (m : Master) (users : Byte) : Bool := decide (m = .app) || hasBit users m.idx

/-- The index of a binding is in its range (R135). -/
def Binding.inRange : Binding → Bool
  | .none => true
  | .signer k => decide (k ≤ 3)
  | .cell k _ => decide (k ≤ 7)
  | .grant => true

/-- The form of a new key, without its use limit (R131, R135 step 3). -/
def keyForm (kind : KeyKind) (usages users : Byte) (binding : Binding) (label : Bytes) : Bool :=
  usagesSuit kind usages && masterSetValid users && decide (users ≠ 0) && decide (1 ≤ label.length) &&
    decide (label.length ≤ 16) && binding.inRange

/-- A new key's class is allowed in the lifecycle (R135 step 1). -/
def State.classAllowed (s : State) : KeyClass → Bool
  | .device => false
  | .factory => decide (s.creds.lifecycle = .manufacture)
  | .owner => decide (s.creds.lifecycle = .owned)
  | .volatile => true

/-- Steps 4 and 5 of R135, then `f` with the handle. -/
def State.withRoom (s : State) (r : Req) (cls : KeyClass) (label : Bytes) (f : Nat → State) : State :=
  if s.labelInUse label then s.refuse r .existsAlready
  else
    match s.roomForKey cls with
    | none => s.refuse r .full
    | some h => f h

/-- The material of a held new key: a KEYGEN job, or 32 bytes drawn at once (R135). -/
def State.makeKey (s : State) (m : Master) (r : Req) (k : NewKey) : State :=
  let s := s.holdKey r k
  match k.kind with
  | .secret => (s.drawn 32).completeKey r k (s.random 32) [] none
  | .sign => (s.setWork r (.keyCreate k)).submitJob (portJob m r .keygen .none)
  | .agree => (s.setWork r (.keyCreate k)).submitJob (portJob m r .keygen .none)

/-- KEY-CREATE taken, its class known (R135). -/
def State.keyCreate (s : State) (m : Master) (r : Req) (cls : KeyClass) (p : Bytes) : State :=
  let usages := byteAt 2 p
  let users := byteAt 3 p
  let label := p.drop 40
  let limit := leNat (slice 38 2 p)
  if s.keyBarred m factoryOnly cls then s.refuse r .notPermitted
  else if !s.classAllowed cls || !mayMake m users then s.refuse r .notPermitted
  else
    match KeyKind.ofCode (byteAt 1 p), Binding.ofCode (byteAt 4 p) (byteAt 5 p) (slice 6 32 p) with
    | some kind, some binding =>
      if !keyForm kind usages users binding label || (decide (limit ≠ 0) && !decide (cls = .volatile)) then
        s.refuse r .badRequest
      else
        s.withRoom r cls label fun h =>
          s.makeKey m r
            { handle := h, cls := cls, kind := kind, usages := usages, users := users, binding := binding, label := label,
              limit := if limit = 0 then none else some limit }
    | _, _ => s.refuse r .badRequest

/-- KEY_CREATE (R135, R136). -/
def execKeyCreate (m : Master) (tag : Byte) (payload : Bytes) (s : State) : Host.Outcome State Fault Refusal :=
  act (fun s => s.request m .keyCreate tag payload fun s r =>
    match KeyClass.ofCode (byteAt 0 payload) with
    | none => s.refuse r .badRequest
    | some cls => s.keyCreate m r cls payload) s

/-! ### KEY-DESTROY -/

/-- The class allows destruction now (R137). -/
def State.mayDestroy (s : State) (m : Master) : KeyClass → Bool
  | .device => false
  | .factory => decide (s.creds.lifecycle = .manufacture)
  | .owner => decide (s.creds.lifecycle = .owned) && s.granted m
  | .volatile => true

/-- A destroy is taken (R138). -/
def State.takeDestroy (s : State) (r : Req) (e : KeyEntry) : State :=
  let kept := decide (e.cls = .factory) || decide (e.cls = .owner)
  let s := (s.setWork r .other).modKeys fun k => { k with
    destroys := k.destroys ++ [{ req := r, handle := e.handle, gen := e.gen, freed := false, writing := kept, status := .ok }] }
  let s := s.destroyKey e.handle e.gen (s.keyInUse e.handle e.gen)
  if kept then s.submitRemoval .key e.handle (.keyRemoval e.handle e.gen) else s

/-- KEY_DESTROY (R137, R138). -/
def execKeyDestroy (m : Master) (tag : Byte) (payload : Bytes) (s : State) : Host.Outcome State Fault Refusal :=
  act (fun s => s.request m .keyDestroy tag payload fun s r =>
    s.withHandle r (byteAt 0 payload) fun h =>
      s.withKey r h (byteAt 1 payload) fun e =>
        if s.keyBarred m factoryOnly e.cls || !mayMake m e.users || !s.mayDestroy m e.cls then s.refuse r .notPermitted
        else s.takeDestroy r e) s

/-! ### KEY-INFO, KEY-FIND, KEY-PUBLIC -/

/-- The KEY-INFO answer (11.8). -/
def KeyEntry.info (e : KeyEntry) : Bytes :=
  [BitVec.ofNat 8 e.handle, e.gen, e.cls.code, e.kind.code, e.usages, e.users, e.binding.code, e.binding.indexByte] ++
    e.binding.valueBytes ++ le 2 (e.limit.getD 0) ++ [BitVec.ofNat 8 e.label.length] ++ padTo 16 0 e.label

/-- KEY_INFO (R140). -/
def execKeyInfo (m : Master) (tag : Byte) (payload : Bytes) (s : State) : Host.Outcome State Fault Refusal :=
  reply (fun s => s.request m .keyInfo tag payload fun s r =>
    s.withHandle r (byteAt 0 payload) fun h =>
      s.withKey r h (byteAt 1 payload) fun e =>
        if s.keyBarred m factoryOnly e.cls then s.refuse r .notPermitted
        else if mayMake m e.users then s.answer r .ok e.info
        else s.refuse r .notFound) s

/-- The PRESENT entry carrying a label (R140). -/
def State.keyLabelled (s : State) (l : Bytes) : Option KeyEntry :=
  s.keys.table.find? fun e => decide (e.label = l) && !e.destroying

/-- KEY_FIND (R140). -/
def execKeyFind (m : Master) (tag : Byte) (payload : Bytes) (s : State) : Host.Outcome State Fault Refusal :=
  reply (fun s => s.request m .keyFind tag payload fun s r =>
    match s.keyLabelled payload with
    | none => s.refuse r .notFound
    | some e =>
      if s.keyBarred m factoryOnly e.cls then s.refuse r .notPermitted
      else if mayMake m e.users then s.answer r .ok [BitVec.ofNat 8 e.handle, e.gen, e.cls.code, e.kind.code]
      else s.refuse r .notFound) s

/-- KEY_PUBLIC (R141). -/
def execKeyPublic (m : Master) (tag : Byte) (payload : Bytes) (s : State) : Host.Outcome State Fault Refusal :=
  reply (fun s => s.request m .keyPublic tag payload fun s r =>
    s.withHandle r (byteAt 0 payload) fun h =>
      s.withKey r h (byteAt 1 payload) fun e =>
        if s.keyBarred m s.publicOnRescue e.cls then s.refuse r .notPermitted
        else if e.kind = .secret then s.refuse r .badRequest
        else if e.cls = .device ∨ e.allows m .exportPublic = true then s.answer r .ok e.pub
        else s.refuse r .notPermitted) s

/-! ### Using keys -/

/-- KEY_SIGN (R142). -/
def execKeySign (m : Master) (tag : Byte) (payload : Bytes) (s : State) : Host.Outcome State Fault Refusal :=
  act (fun s => s.request m .keySign tag payload fun s r =>
    s.withHandle r (byteAt 0 payload) fun h =>
      s.examined r h (byteAt 1 payload) m .sign
        ((s.setWork r .sign).submitJob
          (portJob m r (.sign (.digest (slice 2 32 payload))) (.table h (byteAt 1 payload) m .sign)))) s

/-- The AGREE job of a request, with what is to become of its secret (R143). -/
def State.agree (s : State) (m : Master) (r : Req) (h : Nat) (g : Byte) (peer : Bytes) (keep : Option NewKey) : State :=
  (s.setWork r (.agree keep)).submitJob (portJob m r (.agree peer) (.table h g m .agree))

/-- KEY-AGREE with keep set, after the tests of R133 (R143). -/
def State.agreeKeep (s : State) (m : Master) (r : Req) (h : Nat) (g : Byte) (peer : Bytes) (usages : Byte) (label : Bytes) :
    State :=
  if label.length < 1 ∨ 16 < label.length then s.refuse r .badRequest
  else if s.labelInUse label then s.refuse r .existsAlready
  else if usagesSuit .secret usages = false then s.refuse r .badRequest
  else
    s.withRoom r .volatile label fun free =>
      let k : NewKey :=
        { handle := free, cls := .volatile, kind := .secret, usages := usages, users := BitVec.twoPow 8 m.idx,
          binding := .none, label := label, limit := none }
      (s.holdKey r k).agree m r h g peer (some k)

/-- KEY_AGREE (R143). -/
def execKeyAgree (m : Master) (tag : Byte) (payload : Bytes) (s : State) : Host.Outcome State Fault Refusal :=
  act (fun s => s.request m .keyAgree tag payload fun s r =>
    let g := byteAt 1 payload
    let peer := slice 2 64 payload
    s.withFlag r (byteAt 66 payload) fun keep =>
      s.withHandle r (byteAt 0 payload) fun h =>
        s.examined r h g m .agree
          (if keep then s.agreeKeep m r h g peer (byteAt 67 payload) (payload.drop 68) else s.agree m r h g peer none)) s

/-- A use of a SECRET key by its handle: another kind is answered BAD_REQUEST at taking (R144, R146). -/
def State.withSecret (s : State) (r : Req) (h : Nat) (g : Byte) (m : Master) (u : Usage) (f : State) : State :=
  s.withKey r h g fun e => if e.kind ≠ .secret then s.refuse r .badRequest else s.examined r h g m u f

/-- A use of the stack top: an empty stack is answered STATE at taking (R133, R144, R146). -/
def State.withTop (s : State) (r : Req) (m : Master) (f : Nat → Byte → State) : State :=
  match s.stackRoot m with
  | none => s.refuse r .state
  | some (h, g) => s.examined r h g m .derive (f h g)

/-- KEY-MAC taken (R144). -/
def State.keyMac (s : State) (m : Master) (r : Req) (b g : Byte) (data : Bytes) : State :=
  let go := fun (key : KeyRef) => (s.setWork r .mac).submitJob (portJob m r (.mac data false) key)
  if 48 < b.toNat ∨ 1000 < data.length then s.refuse r .badRequest
  else if b = 0 then s.withTop r m fun _ _ => go (.top m .derive)
  else s.withSecret r b.toNat g m .mac (go (.table b.toNat g m .mac))

/-- KEY_MAC (R144). -/
def execKeyMac (m : Master) (tag : Byte) (payload : Bytes) (s : State) : Host.Outcome State Fault Refusal :=
  act (fun s => s.request m .keyMac tag payload fun s r =>
    s.keyMac m r (byteAt 0 payload) (byteAt 1 payload) (payload.drop 2)) s

/-! ### Derivation stacks -/

/-- The depth of a master's stack (R145). -/
def State.depth (s : State) (m : Master) : Nat := (s.keys.stackOf.get m).length

/-- DERIVE-PUSH taken (R146). -/
def State.derivePush (s : State) (m : Master) (r : Req) (b g : Byte) (label : Bytes) : State :=
  let go := fun (h : Nat) (g : Byte) (key : KeyRef) =>
    (s.setWork r (.pushDerive h g (s.depth m) label)).submitJob (portJob m r (.derive label) key)
  if 48 < b.toNat ∨ label.length < 1 ∨ 64 < label.length then s.refuse r .badRequest
  else if b = 0 then
    if s.depth m = 0 then s.refuse r .state
    else if 8 ≤ s.depth m then s.refuse r .full
    else s.withTop r m fun h g => go h g (.top m .derive)
  else if s.depth m ≠ 0 then s.refuse r .state
  else s.withSecret r b.toNat g m .derive (go b.toNat g (.table b.toNat g m .derive))

/-- DERIVE_PUSH (R146). -/
def execDerivePush (m : Master) (tag : Byte) (payload : Bytes) (s : State) : Host.Outcome State Fault Refusal :=
  act (fun s => s.request m .derivePush tag payload fun s r =>
    s.derivePush m r (byteAt 0 payload) (byteAt 1 payload) (payload.drop 2)) s

/-- DERIVE_POP (R147). -/
def execDerivePop (m : Master) (tag : Byte) (payload : Bytes) (s : State) : Host.Outcome State Fault Refusal :=
  reply (fun s => s.request m .derivePop tag payload fun s r =>
    let st := s.keys.stackOf.get m
    match st.getLast? with
    | none => s.refuse r .state
    | some top =>
      (s.modKeys fun k => { k with stackOf := k.stackOf.set m st.dropLast }).answer r .ok
        (BitVec.ofNat 8 (st.length - 1) :: top.labelDigest)) s

/-- The class of a stored key is allowed (R148). -/
def State.storeClass (s : State) (cls : KeyClass) : Bool :=
  decide (cls = .volatile) || (decide (cls = .owner) && decide (s.creds.lifecycle = .owned))

/-- The root has been examined: its use limit is charged, then the lowest free handle is held, which may be the one a root at
its last use has left, and the new key is completed (R136, R139, R148). DESIGN CHOICE (log entry 50): the answer's depth is that of the
stack as the request is taken, also where its own charge empties the stack, or an OWNER key's record is written first and the
stack is emptied meanwhile. -/
def State.storeTop (s : State) (m : Master) (r : Req) (top : StackEntry) (k : NewKey) : State :=
  let depth := s.depth m
  let s := s.charge top.rootHandle top.rootGen false
  let k := { k with handle := s.freeHandle.getD k.handle }
  (s.holdKey r k).completeKey r k top.secret [] (some depth)

/-- DERIVE-STORE taken, its class known (R148). -/
def State.deriveStore (s : State) (m : Master) (r : Req) (cls : KeyClass) (p : Bytes) : State :=
  let users := byteAt 1 p
  let usages := byteAt 2 p
  let label := p.drop 37
  match (s.keys.stackOf.get m).getLast? with
  | none => s.refuse r .state
  | some top =>
    if !s.storeClass cls || !mayMake m users then s.refuse r .notPermitted
    else
      match Binding.ofCode (byteAt 3 p) (byteAt 4 p) (slice 5 32 p) with
      | none => s.refuse r .badRequest
      | some binding =>
        if keyForm .secret usages users binding label = false then s.refuse r .badRequest
        else
          s.withRoom r cls label fun h =>
            match s.examine top.rootHandle top.rootGen m .deriveStore with
            | some st => s.refuse r st
            | none =>
              s.storeTop m r top
                { handle := h, cls := cls, kind := .secret, usages := usages, users := users, binding := binding,
                  label := label, limit := none }

/-- DERIVE_STORE (R148). -/
def execDeriveStore (m : Master) (tag : Byte) (payload : Bytes) (s : State) : Host.Outcome State Fault Refusal :=
  act (fun s => s.request m .deriveStore tag payload fun s r =>
    match KeyClass.ofCode (byteAt 0 payload) with
    | none => s.refuse r .badRequest
    | some cls => s.deriveStore m r cls payload) s

end Sys2Proof.Machine
end

