-- ==== Sys2Proof/Machine/Manufacture.lean ====
section
/-! DEFINITION. The manufacture requests: FUSE-IDENTITY (R51), FUSE-SIGNER (R53), CLOSE-MANUFACTURE (R54). -/

namespace Sys2Proof.Machine

/-- A 256-bit seed, drawn again until it is not all zero (R51); should every draw the model makes be zero, its lowest bit is
set (log entry 8). -/
def State.drawSeed (s : State) : Nat → BitVec 256 × State
  | 0 => (rowBits (s.random 32) ||| 1, s.drawn 32)
  | n + 1 =>
    let v := rowBits (s.random 32)
    if v = 0 then (s.drawn 32).drawSeed n else (v, s.drawn 32)

/-- FUSE-IDENTITY taken (R51). DESIGN CHOICE (log entry 60): also while an IDENTITY job of an earlier one runs, whose row the view
still shows BLANK. -/
def State.fuseIdentity (s : State) (r : Req) (serial : Bytes) : State :=
  if s.bank.view.identity ≠ .blank then s.refuse r .state
  else if leNat serial = 0 then s.refuse r .badRequest
  else
    let d := s.drawSeed 8
    (d.2.setWork r .other).submitFuse (.identity (BitVec.ofNat 64 (leNat serial)) d.1) (.request r)

/-- FUSE_IDENTITY (R51). -/
def execFuseIdentity (m : Master) (tag : Byte) (payload : Bytes) (s : State) : Host.Outcome State Fault Refusal :=
  act (fun s => s.request m .fuseIdentity tag payload fun s r => s.fuseIdentity r (slice 0 8 payload)) s

/-- The signer row is BLANK (R40). -/
def FuseView.rowBlank (v : FuseView) (k : Nat) : Bool := v.signers[k]?.any fun x => decide (x.state = .blank)

/-- FUSE-SIGNER taken (R53). DESIGN CHOICE (log entry 61): also while an earlier SIGNER job for the row runs, which the view still
shows BLANK. -/
def State.fuseSigner (s : State) (r : Req) (k : Nat) (digest : Bytes) : State :=
  if 3 < k then s.refuse r .badRequest
  else if s.bank.view.rowBlank k = false then s.refuse r .state
  else (s.setWork r .other).submitFuse (.signer k (rowBits digest)) (.request r)

/-- FUSE_SIGNER (R53). -/
def execFuseSigner (m : Master) (tag : Byte) (payload : Bytes) (s : State) : Host.Outcome State Fault Refusal :=
  act (fun s => s.request m .fuseSigner tag payload fun s r =>
    s.fuseSigner r (byteAt 0 payload).toNat (slice 1 32 payload)) s

/-- The three conditions of CLOSE-MANUFACTURE (R54). -/
def State.closeReady (s : State) : Bool :=
  decide (s.bank.view.identity = .programmed) && (s.bank.view.signers.any fun x => decide (x.state = .good)) &&
    (s.currentSlot .app).isSome

/-- CLOSE-MANUFACTURE taken (R54). -/
def State.closeManufacture (s : State) (r : Req) : State :=
  if s.commitInProgress then s.refuse r .conflict
  else if s.closeReady = false then s.refuse r .state
  else (s.setWork r .other).submitFuse .close (.request r)

/-- CLOSE_MANUFACTURE (R54). -/
def execCloseManufacture (m : Master) (tag : Byte) (payload : Bytes) (s : State) : Host.Outcome State Fault Refusal :=
  act (fun s => s.request m .closeManufacture tag payload fun s r => s.closeManufacture r) s

end Sys2Proof.Machine
end

