-- ==== Sys2Proof/Machine/Measurement.lean ====
section
/-! DEFINITION. The measurement requests: EXTEND (R152, R153), LOCK-CELL (R155), READ-CELLS (R156), READ-LOG (R157), ATTEST
(R158 to R161). -/

namespace Sys2Proof.Machine

/-- EXTEND taken (R152). -/
def State.extend (s : State) (m : Master) (r : Req) (cell : Nat) (digest : Bytes) : State :=
  let x := s.measSet m
  if cell < 1 ∨ 7 < cell then s.refuse r .badRequest
  else if x.locks.getD cell false then s.refuse r .state
  else if 32 ≤ x.log.length then s.refuse r .full
  else
    (s.setWork r (.extend cell digest)).submitJob
      (.mk' (.port m) (.digest none (x.cells.getD cell zeroValue ++ digest) true) .none (.request r))

/-- EXTEND (R152, R153). -/
def execExtend (m : Master) (tag : Byte) (payload : Bytes) (s : State) : Host.Outcome State Fault Refusal :=
  act (fun s => s.request m .extend tag payload fun s r =>
    s.extend m r (byteAt 0 payload).toNat (slice 1 32 payload)) s

/-- LOCK_CELL (R155). -/
def execLockCell (m : Master) (tag : Byte) (payload : Bytes) (s : State) : Host.Outcome State Fault Refusal :=
  reply (fun s => s.request m .lockCell tag payload fun s r =>
    let cell := (byteAt 0 payload).toNat
    if 7 < cell then s.refuse r .badRequest
    else (s.modMeas m fun x => { x with locks := x.locks.set cell true }).answer r .ok []) s

/-- The master a reading names, tested as R156 gives. -/
def State.withReading (s : State) (m : Master) (r : Req) (b : Byte) (f : Master → State) : State :=
  s.withMaster r b fun target => if mayName m target then f target else s.refuse r .notPermitted

/-- READ_CELLS (R156). DESIGN CHOICE (log entry 51): the set as it is stored, also of a HELD master whose cell 0 a release step has
set before the boot choice was made again (R96, R151). -/
def execReadCells (m : Master) (tag : Byte) (payload : Bytes) (s : State) : Host.Outcome State Fault Refusal :=
  reply (fun s => s.request m .readCells tag payload fun s r =>
    s.withReading m r (byteAt 0 payload) fun target =>
      let x := s.measSet target
      s.answer r .ok (x.cells.flatten ++ [x.lockByte, BitVec.ofNat 8 x.log.length] ++ x.releaseBytes)) s

/-- The READ-LOG answer: at most 30 entries from a start (R157, 11.8). -/
def MeasSet.logFrom (x : MeasSet) (start : Nat) : Bytes :=
  let es := (x.log.drop start).take 30
  [BitVec.ofNat 8 start, BitVec.ofNat 8 x.log.length] ++ x.releaseBytes ++ [BitVec.ofNat 8 es.length] ++
    es.flatMap fun e => BitVec.ofNat 8 e.cell :: padTo 32 0 e.digest

/-- READ_LOG (R157). -/
def execReadLog (m : Master) (tag : Byte) (payload : Bytes) (s : State) : Host.Outcome State Fault Refusal :=
  reply (fun s => s.request m .readLog tag payload fun s r =>
    s.withReading m r (byteAt 0 payload) fun target =>
      let x := s.measSet target
      let start := (byteAt 1 payload).toNat
      if x.log.length < start then s.refuse r .badRequest else s.answer r .ok (x.logFrom start)) s

/-- The masters a requester may name in ATTEST (R158, R190). -/
def State.mayAttest (s : State) (m : Master) (masters : Byte) : Bool :=
  (decide (m = .app) && !s.onRescue) || decide (masters = BitVec.twoPow 8 m.idx)

/-- ATTEST taken (R158, R159, R161). -/
def State.attest (s : State) (m : Master) (r : Req) (masters : Byte) (masks : Tri Byte) (nonce : Bytes) : State :=
  if masters = 0 ∨ masterSetValid masters = false then s.refuse r .badRequest
  else if s.mayAttest m masters = false then s.refuse r .notPermitted
  else if (s.keyFound 1 (s.genOf 1)).isNone then s.refuse r .state
  else if 4294967295 ≤ s.meas.sequence then s.refuse r .full
  else
    let s := { s with meas := { s.meas with sequence := s.meas.sequence + 1 } }
    let b := s.statement masters masks nonce
    (s.setWork r (.attest b)).submitJob (.mk' (.port m) (.sign (.text b)) .attest (.request r))

/-- ATTEST (R158 to R161). -/
def execAttest (m : Master) (tag : Byte) (payload : Bytes) (s : State) : Host.Outcome State Fault Refusal :=
  act (fun s => s.request m .attest tag payload fun s r =>
    s.attest m r (byteAt 0 payload) ⟨byteAt 1 payload, byteAt 2 payload, byteAt 3 payload⟩ (slice 4 32 payload)) s

end Sys2Proof.Machine
end

