-- ==== Sys2Proof/Machine/Part.lean ====
section
/-! DEFINITION. The whole part: POWER_ON, NRESET, PART_RESET (R108 and every block's part-reset values), FUSE_BANK_READ_END
(R38, R93, R164). -/

namespace Sys2Proof.Machine

/-- A part reset (R108): the array and the fuses are left as R17 and R48 give, every other block takes its part-reset values. -/
def State.partReset (s : State) (cause : ResetCause) : State :=
  let t := s.flashReset.fuseReset
  { State.reset with
    pending := s.pending, free := t.free, rng := s.rng, uid := s.uid, flash := t.flash, fuses := t.fuses,
    bank := t.bank, resetCause := cause }

/-- POWER_ON (R108). -/
def execPowerOn (s : State) : Host.Outcome State Fault Refusal := .next (s.partReset .power)

/-- NRESET (R108). -/
def execNreset (s : State) : Host.Outcome State Fault Refusal := .next (s.partReset .pin)

/-- PART-RESET is permitted: in OWNED, only with APP's grant (R108). -/
def State.partResetAllowed (s : State) : Bool := !decide (s.creds.lifecycle = .owned) || s.granted .app

/-- A PART-RESET frame passes every test, so the part reset follows (R108, R180 to R182). -/
def State.partResetTaken (s : State) (m : Master) (payload : Bytes) : Bool :=
  !decide ((s.sup m).phase = .held) && !decide ((s.port m).req = .working) && s.available m .partReset &&
    fits RequestName.partReset.layout payload && s.partResetAllowed

/-- PART_RESET (R108): never answered when taken. -/
def execPartReset (m : Master) (tag : Byte) (payload : Bytes) (s : State) : Host.Outcome State Fault Refusal :=
  if s.partResetTaken m payload then .next (s.partReset .request)
  else reply (fun s => s.request m .partReset tag payload fun s r => s.refuse r .notPermitted) s

/-- The read at part reset has ended: the view and the lifecycle are taken; mount starts, or the masters go on without one
(R33, R38, R42, R93, R164). -/
def State.bankRead (s : State) : State :=
  if s.bank.reading then
    let s := s.modBank fun b => { b with reading := false, view := s.fuses.view }
    let s := s.closedSeen.modCreds fun c => { c with lifecycle := if s.bank.view.closed then .unowned else .manufacture }
    if s.bank.view.identity = .programmed then s.startMount none
    else Master.all.foldl (fun s m => s.post (.tryChoice m)) s
  else s

/-- FUSE_BANK_READ_END (R38). -/
def execFuseBankReadEnd (s : State) : Host.Outcome State Fault Refusal := act State.bankRead s

end Sys2Proof.Machine
end

