-- ==== Sys2Proof/Machine/Timers.lean ====
section
/-! DEFINITION. Deadlines and the owner button: each command lets time pass up to its deadline and takes what the deadline
brings; one whose deadline is not running changes nothing (log entries 1, 2 and 26). -/

namespace Sys2Proof.Machine

/-- The gather window of a GATHERING batch closes (R7, R8, R12). -/
def State.gatherClosed (s : State) : State :=
  match s.ctl.batch with
  | none => s
  | some b => if b.state = .gathering then (s.until b.closes).arbitrate else s

/-- GATHER_WINDOW_CLOSE. -/
def execGatherWindowClose (s : State) : Host.Outcome State Fault Refusal := act State.gatherClosed s

/-- The hold deadline of a HELD(RESTARTING) master passes (R93, R94). -/
def State.holdPassed (s : State) (m : Master) : State :=
  match (s.sup m).holdDeadline with
  | none => s
  | some d => (s.untilMs d).tryChoice m

/-- HOLD_DEADLINE. -/
def execHoldDeadline (m : Master) (s : State) : Host.Outcome State Fault Refusal := act (fun s => s.holdPassed m) s

/-- The contact deadline of a BOOTING master is reached (R102). -/
def State.contactReached (s : State) (m : Master) : State :=
  match (s.sup m).contact with
  | none => s
  | some d => (s.untilMs d).contactExpires m

/-- CONTACT_EXPIRY. -/
def execContactExpiry (m : Master) (s : State) : Host.Outcome State Fault Refusal := act (fun s => s.contactReached m) s

/-- The trial window after its deadline is reached (R105). -/
def TrialWindow.expired (w : TrialWindow) : TrialWindow :=
  { w with errors := w.errors + 1, last := w.deadline, deadline := w.deadline + w.max }

/-- The trial deadline is reached with the window open (R105, R106). -/
def State.trialReached (s : State) (m : Master) : State :=
  match (s.sup m).trial with
  | none => s
  | some w =>
    let s := (s.untilMs w.deadline).modSup m fun x => { x with trial := some w.expired }
    if w.expired.errors < w.limit then s else s.failTrial m

/-- TRIAL_DEADLINE. -/
def execTrialDeadline (m : Master) (s : State) : Host.Outcome State Fault Refusal := act (fun s => s.trialReached m) s

/-- A verifier's lockout ends (R167). -/
def State.lockoutPassed (s : State) (entry : Nat) : State :=
  match (s.credAt entry).bind (·.lockout) with
  | none => s
  | some d => (s.untilMs d).modCred entry fun e => { e with lockout := none }

/-- LOCKOUT_EXPIRY. -/
def execLockoutExpiry (entry : Nat) (s : State) : Host.Outcome State Fault Refusal := reply (fun s => s.lockoutPassed entry) s

/-- An open grant's deadline passes (R168). -/
def State.grantPassed (s : State) (m : Master) : State :=
  match s.creds.grants.get m with
  | none => s
  | some d => (s.untilMs d).loseGrant m

/-- GRANT_EXPIRY. -/
def execGrantExpiry (m : Master) (s : State) : Host.Outcome State Fault Refusal := reply (fun s => s.grantPassed m) s

/-! ### The owner button (R175) -/

/-- A press is established. -/
def State.buttonPressed (s : State) : State :=
  let s := s.modCreds fun c => { c with pressed := true }
  if s.creds.button = .released then
    s.modCreds fun c => { c with button := .holding, buttonDeadline := some (s.ms + 10000) }
  else s

/-- OWNER_BUTTON_PRESS. -/
def execOwnerButtonPress (s : State) : Host.Outcome State Fault Refusal := reply State.buttonPressed s

/-- A release is established. -/
def State.buttonReleased (s : State) : State :=
  let s := s.modCreds fun c => { c with pressed := false }
  if s.creds.button = .holding ∨ s.creds.button = .spent then
    s.modCreds fun c => { c with button := .released, buttonDeadline := none }
  else s

/-- OWNER_BUTTON_RELEASE. -/
def execOwnerButtonRelease (s : State) : Host.Outcome State Fault Refusal := reply State.buttonReleased s

/-- The hold deadline passes: SPENT, and in OWNED a wipe starts unless one is starting or in progress. -/
def State.buttonHeld (s : State) : State :=
  match s.creds.buttonDeadline with
  | none => s
  | some d =>
    let s := (s.untilMs d).modCreds fun c => { c with button := .spent, buttonDeadline := none }
    if s.creds.lifecycle = .owned ∧ s.creds.wipe = .none ∧ s.creds.wiping = false then s.startWipe .button none else s

/-- OWNER_BUTTON_HOLD_EXPIRY. -/
def execOwnerButtonHoldExpiry (s : State) : Host.Outcome State Fault Refusal := act State.buttonHeld s

/-! ### STAT (R114) -/

/-- An on or off period of a blinking pattern ends. -/
def State.blink (s : State) : State :=
  match statPeriod s.stat.priority with
  | none => s
  | some p => { s.until (s.stat.since + p) with stat := ⟨s.stat.priority, !s.stat.on, s.stat.since + p⟩ }

/-- STAT_BLINK_TOGGLE. -/
def execStatBlinkToggle (s : State) : Host.Outcome State Fault Refusal := .next s.blink

end Sys2Proof.Machine
end

