-- ==== Sys2Proof/Machine/Transactions.lean ====
section
/-! DEFINITION. Transactions on a port: BOOT-READ (R16, R99, R100), ANSWER-READ (R184), STATUS-READ (R185), EVENT-CLEAR and
EVENT-MASK (R187), unknown codes (R180, R182), discarded frames (R181). -/

namespace Sys2Proof.Machine

/-! ### BOOT-READ -/

/-- A BOOT-READ code byte is taken on the port of a master that is not HELD: a self-restart while RUNNING (R99, R100). -/
def State.bootRead (s : State) (m : Master) : State :=
  if (s.sup m).phase = .held then s
  else
    let s := (s.dropBootRead m).modPort m fun p => { p with boot := some ⟨none, 0, false, false⟩, out := [] }
    if (s.sup m).phase = .running then s.masterReset m (some .selfRestart) true else s

/-- BOOT_READ. -/
def execBootRead (m : Master) (s : State) : Host.Outcome State Fault Refusal := act (fun s => s.bootRead m) s

/-- The address phase completes: with the window OPEN the boot read arrives (R16); with it PENDING the address is kept
(R100). -/
def State.bootAddressed (s : State) (m : Master) (a : Nat) : State :=
  match (s.port m).boot with
  | none => s
  | some b =>
    if b.addr.isSome then s
    else
      let opened := decide ((s.sup m).window = some .open)
      let s := s.modPort m fun p => { p with boot := some { b with addr := some a, opened := opened } }
      if opened then s.bootArrives m a else s

/-- BOOT_READ_ARRIVAL. -/
def execBootReadArrival (m : Master) (addr : BitVec 24) (s : State) : Host.Outcome State Fault Refusal :=
  act (fun s => s.bootAddressed m addr.toNat) s

/-- BOOT_READ_END. -/
def execBootReadEnd (m : Master) (waited clocked : Nat) (s : State) : Host.Outcome State Fault Refusal :=
  act (fun s => s.bootEnded m waited clocked) s

/-! ### The other transactions -/

/-- A transaction of a master that is not HELD; the output reads 0xFF where the transaction defines no byte (R180, log entry
11). -/
def State.served (s : State) (m : Master) (f : State → State) : State :=
  if (s.sup m).phase = .held then s else f (s.silent m)

/-- What an ANSWER-READ returns: the answer frame when ANSWERED, else the NONE frame (R184). -/
def Port.answerFrame (p : Port) : Bytes :=
  match p.req, p.answer with
  | .answered, some a => a.frame
  | r, _ => noneFrame r

/-- `n` bytes of a frame, 0xFF after its end (R184). -/
def clockedOut (frame : Bytes) (n : Nat) : Bytes := padTo n 0xFF frame

/-- ANSWER_READ: it changes nothing but what the port drives (R184). -/
def execAnswerRead (m : Master) (clocked : Nat) (s : State) : Host.Outcome State Fault Refusal :=
  reply (fun s => s.served m fun s => s.modPort m fun p => { p with out := clockedOut p.answerFrame clocked }) s

/-- The four bytes of a STATUS-READ (R185). -/
def State.statusBytes (s : State) (m : Master) : Bytes :=
  let p := s.port m
  [p.req.code, p.flags &&& p.mask, (s.sup m).phaseCode, s.lifecycleByte]

/-- STATUS_READ. -/
def execStatusRead (m : Master) (s : State) : Host.Outcome State Fault Refusal :=
  reply (fun s => s.served m fun s => s.modPort m fun p => { p with out := s.statusBytes m }) s

/-- EVENT_CLEAR (R187). DESIGN CHOICE (log entry 11), for EVENT_MASK too: one ignored at its code byte, or ended before its data
byte, has no command (R180). -/
def execEventClear (m : Master) (bits : Byte) (s : State) : Host.Outcome State Fault Refusal :=
  reply (fun s => s.served m fun s => s.modPort m fun p => { p with flags := p.flags &&& ~~~bits }) s

/-- EVENT_MASK (R187). -/
def execEventMask (m : Master) (bits : Byte) (s : State) : Host.Outcome State Fault Refusal :=
  reply (fun s => s.served m fun s => s.modPort m fun p => { p with mask := bits }) s

/-- The transaction codes of 11.8. -/
def transactionCodes : List Byte := [0x3A, 0x5C, 0x6E, 0x71, 0x73, 0x75]

/-- UNKNOWN_TRANSACTION_CODE raises PROTO (R180); a code of the table is no such transaction. -/
def execUnknownTransactionCode (m : Master) (code : Byte) (s : State) : Host.Outcome State Fault Refusal :=
  reply (fun s => if code ∈ transactionCodes then s else s.served m fun s => s.raise m flagProto) s

/-- UNKNOWN_REQUEST (R182 step 1); a code of the table is no such request. -/
def execUnknownRequest (m : Master) (tag code : Byte) (payload : Bytes) (s : State) : Host.Outcome State Fault Refusal :=
  reply (fun s =>
    if knownCode code then s else s.judge m tag code payload fun s r => s.refuse r .unknownRequest) s

/-- A frame that R181 discards: OVERRUN while WORKING, else FRAME_ERR for a bad one. -/
def State.discard (s : State) (m : Master) (frame : Bytes) : State :=
  if (s.port m).req = .working then (s.silent m).raise m flagOverrun
  else if frameGood frame then s
  else (s.silent m).raise m flagFrameErr

/-- REQUEST_FRAME_DISCARDED (R181); a frame that R181 accepts is no such event. A lost one, begun while HELD and so ignored though
its master has been released since, or ended by a master reset, raises no flag (R180, log entry 25). -/
def execRequestFrameDiscarded (m : Master) (frame : Option Bytes) (s : State) : Host.Outcome State Fault Refusal :=
  reply (fun s =>
    match frame with
    | none => s
    | some f => if (s.sup m).phase = .held then s else s.discard m f) s

end Sys2Proof.Machine
end

