-- ==== Sys2Proof/Machine/Update.lean ====
section
/-! DEFINITION. The slot requests: STAGE-BEGIN (R72), STAGE-DATA (R75), STAGE-END (R77), STAGE-ABORT (R80), SLOT-QUERY (R83),
SLOT-ERASE (R84), and ACTIVATE in its three modes (R86 to R88). -/

namespace Sys2Proof.Machine

/-- The rescue column's limit: APP on the rescue image names APP's own slots only (R190). -/
def State.rescueBars (s : State) (m target : Master) : Bool :=
  decide (m = .app) && s.onRescue && !decide (target = .app)

/-! ### STAGE-BEGIN -/

/-- The tests of R72, then the DIGEST of the signer public key (R73). -/
def State.stageBegin (s : State) (m : Master) (r : Req) (target : Master) (overwrite : Bool) (mf : Bytes) : State :=
  if s.authority m target = false then s.refuse r .notPermitted
  else if s.commitInProgress then s.refuse r .conflict
  else if (s.session m).isSome then s.refuse r .state
  else
    match s.placeTests target overwrite with
    | .inr (st, d) => s.refuse r st d
    | .inl _ =>
      match s.manifestFailure target mf with
      | some d => s.refuse r .badRequest (some d)
      | none =>
        (s.setWork r (.stageDigest target overwrite mf)).submitJob
          (.mk' (.port m) (.digest none (manifestKey mf) true) .none (.request r))

/-- STAGE_BEGIN (R72, R73, R190). -/
def execStageBegin (m : Master) (tag : Byte) (payload : Bytes) (s : State) : Host.Outcome State Fault Refusal :=
  act (fun s => s.request m .stageBegin tag payload fun s r =>
    s.withMaster r (byteAt 0 payload) fun target =>
      if s.rescueBars m target then s.refuse r .notPermitted
      else s.withFlag r (byteAt 1 payload) fun overwrite => s.stageBegin m r target overwrite (payload.drop 2)) s

/-! ### STAGE-DATA and STAGE-END -/

/-- The session the port owns, when its slot is LOADING (R75, R77). -/
def State.loadingSession (s : State) (m : Master) : Option SlotId :=
  (s.session m).filter fun i => decide ((s.slot i).state = .loading)

/-- STAGE-DATA taken (R75); data of no bytes are outside the range it carries. -/
def State.stageData (s : State) (m : Master) (r : Req) (offset : Nat) (data : Bytes) : State :=
  match s.loadingSession m with
  | none => s.refuse r .state
  | some i =>
    let e := s.slot i
    if offset ≠ e.received then s.refuse r .outOfOrder
    else if manifestLength e.mf < e.received + data.length ∨ data = [] then s.refuse r .badRequest
    else (s.setWork r (.stageData i)).queuePages r i offset data

/-- STAGE_DATA (R75). -/
def execStageData (m : Master) (tag : Byte) (payload : Bytes) (s : State) : Host.Outcome State Fault Refusal :=
  act (fun s => s.request m .stageData tag payload fun s r =>
    s.stageData m r (leNat (slice 0 4 payload)) (payload.drop 4)) s

/-- STAGE-END taken: LOADED, and at once CHECKING (R77). -/
def State.stageEnd (s : State) (m : Master) (r : Req) : State :=
  match s.loadingSession m with
  | none => s.refuse r .state
  | some i =>
    let e := s.slot i
    if e.received ≠ manifestLength e.mf then s.refuse r .badRequest
    else ((s.setSlot i { e with state := .checking, received := 0 }).setWork r (.stageEnd i)).startCheck r i

/-- STAGE_END (R77). -/
def execStageEnd (m : Master) (tag : Byte) (payload : Bytes) (s : State) : Host.Outcome State Fault Refusal :=
  act (fun s => s.request m .stageEnd tag payload fun s r => s.stageEnd m r) s

/-! ### STAGE-ABORT -/

/-- Who may abort the pending slot of a target (R80). -/
def State.mayAbort (s : State) (m target : Master) : Bool :=
  decide (m = .app) || s.authority m target ||
    (s.pendingSlot target).any fun i => decide ((s.slot i).owner = some m) && (s.slot i).state.staging

/-- STAGE-ABORT taken (R80, R89, R124). -/
def State.stageAbort (s : State) (m : Master) (r : Req) (target : Master) : State :=
  if s.rescueBars m target || !s.mayAbort m target then s.refuse r .notPermitted
  else if s.commitHolds target then s.refuse r .conflict
  else
    match s.pendingSlot target with
    | none => s.refuse r .state
    | some i =>
      if (s.slot i).state.staging then (s.endSession i .aborted).answer r .ok []
      else (s.setWork r .other).writeSlot i ((s.slot i).failedWith .aborted) (.abort r i)

/-- STAGE_ABORT (R80). -/
def execStageAbort (m : Master) (tag : Byte) (payload : Bytes) (s : State) : Host.Outcome State Fault Refusal :=
  act (fun s => s.request m .stageAbort tag payload fun s r =>
    s.withMaster r (byteAt 0 payload) fun target => s.stageAbort m r target) s

/-! ### SLOT-QUERY and SLOT-ERASE -/

/-- SLOT_QUERY: both entries of the master, slot 0 first (R83). -/
def execSlotQuery (m : Master) (tag : Byte) (payload : Bytes) (s : State) : Host.Outcome State Fault Refusal :=
  reply (fun s => s.request m .slotQuery tag payload fun s r =>
    s.withMaster r (byteAt 0 payload) fun target =>
      if s.rescueBars m target || !(mayName m target || s.authority m target) then s.refuse r .notPermitted
      else s.answer r .ok
        (byteAt 0 payload :: ((s.slot ⟨target, .s0⟩).queryBytes ++ (s.slot ⟨target, .s1⟩).queryBytes))) s

/-- SLOT-ERASE taken (R84). -/
def State.slotErase (s : State) (m : Master) (r : Req) (i : SlotId) : State :=
  let e := s.slot i
  if s.authority m i.master = false then s.refuse r .notPermitted
  else if s.commitInProgress then s.refuse r .conflict
  else if (e.state ≠ .failed ∧ e.state ≠ .fallback) ∨ e.erasePending = true then s.refuse r .state
  else if s.slotRetired i then s.refuse r .state (some .damaged)
  else ((s.putSlot i { e with erasePending := true }).setWork r .other).eraseSlot i r false

/-- SLOT_ERASE (R84, R85). -/
def execSlotErase (m : Master) (tag : Byte) (payload : Bytes) (s : State) : Host.Outcome State Fault Refusal :=
  act (fun s => s.request m .slotErase tag payload fun s r =>
    s.withMaster r (byteAt 0 payload) fun target =>
      s.withSlot r (byteAt 1 payload) fun n => s.slotErase m r ⟨target, n⟩) s

/-! ### ACTIVATE -/

/-- The three rows of ACTIVATE: the mode byte of each (11.8). -/
inductive ActivateMode
  | next | now | install
deriving DecidableEq, Repr

def ActivateMode.code : ActivateMode → Byte
  | .next => 0 | .now => 1 | .install => 2

/-- The READY slot of a master. -/
def State.readySlot (s : State) (m : Master) : Option SlotId := s.findSlot m fun e => decide (e.state = .ready)

/-- Modes NEXT and NOW (R86, R87). -/
def State.activateTrial (s : State) (r : Req) (target : Master) (now : Bool) : State :=
  match s.readySlot target with
  | none => s.refuse r .state
  | some i =>
    if (s.slot i).tryMark then s.activated r i now
    else (s.setWork r .other).writeSlot i { s.slot i with tryMark := true } (.tryMark r i now)

/-- Mode INSTALL (R88). -/
def State.activateInstall (s : State) (r : Req) (target : Master) : State :=
  if s.creds.lifecycle ≠ .manufacture then s.refuse r .notPermitted
  else
    match s.readySlot target with
    | none => s.refuse r .state
    | some i =>
      (s.setWork r .other).causeCommit
        { master := target, slot := i.slot, bodyDigest := manifestDigest (s.slot i).mf, cause := .install, req := r }

/-- The mode byte of a payload is one of the other rows' (log entry 25). -/
def otherMode (mode : ActivateMode) (payload : Bytes) : Bool :=
  decide (payload.length = 2) && decide ((byteAt 1 payload).toNat ≤ 2) && !decide (byteAt 1 payload = mode.code)

/-- The tests of ACTIVATE that its modes share (R86), after that of the rescue column (R190). -/
def State.activateTests (s : State) (m : Master) (r : Req) (payload : Bytes) (f : Master → State) : State :=
  s.withMaster r (byteAt 0 payload) fun target =>
    if s.rescueBars m target then s.refuse r .notPermitted
    else if 2 < (byteAt 1 payload).toNat then s.refuse r .badRequest
    else if s.authority m target = false then s.refuse r .notPermitted
    else if s.commitInProgress then s.refuse r .conflict
    else f target

/-- ACTIVATE_NEXT (R86). -/
def execActivateNext (m : Master) (tag : Byte) (payload : Bytes) (s : State) : Host.Outcome State Fault Refusal :=
  act (fun s =>
    if otherMode .next payload then s
    else s.request m .activate tag payload fun s r =>
      s.activateTests m r payload fun target => s.activateTrial r target false) s

/-- ACTIVATE_NOW (R87). -/
def execActivateNow (m : Master) (tag : Byte) (payload : Bytes) (s : State) : Host.Outcome State Fault Refusal :=
  act (fun s =>
    if otherMode .now payload then s
    else s.request m .activate tag payload fun s r =>
      s.activateTests m r payload fun target => s.activateTrial r target true) s

/-- ACTIVATE_INSTALL (R88). -/
def execActivateInstall (m : Master) (tag : Byte) (payload : Bytes) (s : State) : Host.Outcome State Fault Refusal :=
  act (fun s =>
    if otherMode .install payload then s
    else s.request m .activate tag payload fun s r =>
      s.activateTests m r payload fun target => s.activateInstall r target) s

end Sys2Proof.Machine
end

