-- ==== Sys2Proof/Machine/Dispatch.lean ====
section
/-! DEFINITION. One arm for each command: its meaning. -/

namespace Sys2Proof.Machine

/-- The effect of a command on everything but the queue of commands. -/
def exec (i : Instr) (s : State) : Host.Outcome State Fault Refusal :=
  match i with
  | .powerOn => Sys2Proof.Machine.execPowerOn s
  | .nreset => Sys2Proof.Machine.execNreset s
  | .bootRead m => Sys2Proof.Machine.execBootRead m s
  | .bootReadArrival m addr => Sys2Proof.Machine.execBootReadArrival m addr s
  | .bootReadEnd m waited clocked => Sys2Proof.Machine.execBootReadEnd m waited clocked s
  | .answerRead m clocked => Sys2Proof.Machine.execAnswerRead m clocked s
  | .statusRead m => Sys2Proof.Machine.execStatusRead m s
  | .eventClear m bits => Sys2Proof.Machine.execEventClear m bits s
  | .eventMask m bits => Sys2Proof.Machine.execEventMask m bits s
  | .unknownTransactionCode m code => Sys2Proof.Machine.execUnknownTransactionCode m code s
  | .unknownRequest m tag code payload => Sys2Proof.Machine.execUnknownRequest m tag code payload s
  | .identify m tag payload => Sys2Proof.Machine.execIdentify m tag payload s
  | .masterState m tag payload => Sys2Proof.Machine.execMasterState m tag payload s
  | .announce m tag payload => Sys2Proof.Machine.execAnnounce m tag payload s
  | .restart m tag payload => Sys2Proof.Machine.execRestart m tag payload s
  | .partReset m tag payload => Sys2Proof.Machine.execPartReset m tag payload s
  | .settingsRead m tag payload => Sys2Proof.Machine.execSettingsRead m tag payload s
  | .settingsWrite m tag payload => Sys2Proof.Machine.execSettingsWrite m tag payload s
  | .stageBegin m tag payload => Sys2Proof.Machine.execStageBegin m tag payload s
  | .stageData m tag payload => Sys2Proof.Machine.execStageData m tag payload s
  | .stageEnd m tag payload => Sys2Proof.Machine.execStageEnd m tag payload s
  | .stageAbort m tag payload => Sys2Proof.Machine.execStageAbort m tag payload s
  | .slotQuery m tag payload => Sys2Proof.Machine.execSlotQuery m tag payload s
  | .activateNext m tag payload => Sys2Proof.Machine.execActivateNext m tag payload s
  | .activateNow m tag payload => Sys2Proof.Machine.execActivateNow m tag payload s
  | .activateInstall m tag payload => Sys2Proof.Machine.execActivateInstall m tag payload s
  | .trialCheck m tag payload => Sys2Proof.Machine.execTrialCheck m tag payload s
  | .slotErase m tag payload => Sys2Proof.Machine.execSlotErase m tag payload s
  | .keyCreate m tag payload => Sys2Proof.Machine.execKeyCreate m tag payload s
  | .keyDestroy m tag payload => Sys2Proof.Machine.execKeyDestroy m tag payload s
  | .keyInfo m tag payload => Sys2Proof.Machine.execKeyInfo m tag payload s
  | .keyFind m tag payload => Sys2Proof.Machine.execKeyFind m tag payload s
  | .keyPublic m tag payload => Sys2Proof.Machine.execKeyPublic m tag payload s
  | .keySign m tag payload => Sys2Proof.Machine.execKeySign m tag payload s
  | .keyAgree m tag payload => Sys2Proof.Machine.execKeyAgree m tag payload s
  | .keyMac m tag payload => Sys2Proof.Machine.execKeyMac m tag payload s
  | .derivePush m tag payload => Sys2Proof.Machine.execDerivePush m tag payload s
  | .derivePop m tag payload => Sys2Proof.Machine.execDerivePop m tag payload s
  | .deriveStore m tag payload => Sys2Proof.Machine.execDeriveStore m tag payload s
  | .extend m tag payload => Sys2Proof.Machine.execExtend m tag payload s
  | .lockCell m tag payload => Sys2Proof.Machine.execLockCell m tag payload s
  | .readCells m tag payload => Sys2Proof.Machine.execReadCells m tag payload s
  | .readLog m tag payload => Sys2Proof.Machine.execReadLog m tag payload s
  | .attest m tag payload => Sys2Proof.Machine.execAttest m tag payload s
  | .claim m tag payload => Sys2Proof.Machine.execClaim m tag payload s
  | .credVerify m tag payload => Sys2Proof.Machine.execCredVerify m tag payload s
  | .credPut m tag payload => Sys2Proof.Machine.execCredPut m tag payload s
  | .credGet m tag payload => Sys2Proof.Machine.execCredGet m tag payload s
  | .credDelete m tag payload => Sys2Proof.Machine.execCredDelete m tag payload s
  | .credList m tag payload => Sys2Proof.Machine.execCredList m tag payload s
  | .grantClose m tag payload => Sys2Proof.Machine.execGrantClose m tag payload s
  | .relinquish m tag payload => Sys2Proof.Machine.execRelinquish m tag payload s
  | .fuseIdentity m tag payload => Sys2Proof.Machine.execFuseIdentity m tag payload s
  | .fuseSigner m tag payload => Sys2Proof.Machine.execFuseSigner m tag payload s
  | .closeManufacture m tag payload => Sys2Proof.Machine.execCloseManufacture m tag payload s
  | .gatherWindowClose => Sys2Proof.Machine.execGatherWindowClose s
  | .holdDeadline m => Sys2Proof.Machine.execHoldDeadline m s
  | .contactExpiry m => Sys2Proof.Machine.execContactExpiry m s
  | .trialDeadline m => Sys2Proof.Machine.execTrialDeadline m s
  | .programTimeLimit stuck => Sys2Proof.Machine.execProgramTimeLimit stuck s
  | .eraseTimeLimit kept => Sys2Proof.Machine.execEraseTimeLimit kept s
  | .lockoutExpiry entry => Sys2Proof.Machine.execLockoutExpiry entry s
  | .grantExpiry m => Sys2Proof.Machine.execGrantExpiry m s
  | .ownerButtonPress => Sys2Proof.Machine.execOwnerButtonPress s
  | .ownerButtonRelease => Sys2Proof.Machine.execOwnerButtonRelease s
  | .ownerButtonHoldExpiry => Sys2Proof.Machine.execOwnerButtonHoldExpiry s
  | .statBlinkToggle => Sys2Proof.Machine.execStatBlinkToggle s
  | .internalReadEnd r => Sys2Proof.Machine.execInternalReadEnd r s
  | .programEnd stuck => Sys2Proof.Machine.execProgramEnd stuck s
  | .sectorEraseEnd kept => Sys2Proof.Machine.execSectorEraseEnd kept s
  | .fuseAttemptEnd blown => Sys2Proof.Machine.execFuseAttemptEnd blown s
  | .cryptoJobEnd => Sys2Proof.Machine.execCryptoJobEnd s
  | .flashArbitration => Sys2Proof.Machine.execFlashArbitration s
  | .bootChoice m => Sys2Proof.Machine.execBootChoice m s
  | .commitStart => Sys2Proof.Machine.execCommitStart s
  | .requestFrameDiscarded m frame => Sys2Proof.Machine.execRequestFrameDiscarded m frame s
  | .fuseBankReadEnd => Sys2Proof.Machine.execFuseBankReadEnd s

end Sys2Proof.Machine
end

