-- ==== Sys2Proof/Machine/Step.lean ====
section
/-! DEFINITION. A step of the part: the command at the front of the queue, or, on an empty queue, a millisecond of time (log
entry 2). -/

namespace Sys2Proof.Machine

/-- Takes the command at the front of the queue; with none waiting, one millisecond passes. -/
def step (s : State) : Host.Outcome State Fault Refusal :=
  match s.pending with
  | [] => .next (s.pass 1000)
  | c :: rest => exec c { s with pending := rest }

/-- `s` with the command a word spells at the front of its queue; unchanged where it spells none. -/
def State.withFetchWord (s : State) (nbits w : Nat) : State :=
  match decodeTableWord nbits w with
  | none => s
  | some c => { s with pending := c :: s.pending }

end Sys2Proof.Machine
end

