-- ==== Sys2Proof/WellFormed.lean ====
section
/-! DEFINITION. The operands a command of each row can carry: what a frame, a read-back or a report of the array can say. A
command outside them is no event of the part; exec judges it as it judges any other, and nothing is claimed of it. -/

namespace Sys2Proof

open Machine

/-- A frame carries at most 1,024 payload bytes (R181). -/
def payloadFits (p : Bytes) : Bool := decide (p.length ≤ 1024)

/-- The mode byte of an ACTIVATE row: its own, or no mode at all (log entry 25). -/
def modeFits (mode : Nat) (p : Bytes) : Bool :=
  !decide (p.length = 2) || decide ((byteAt 1 p).toNat = mode) || decide (2 < (byteAt 1 p).toNat)

/-- A program's run lies in one page (R3). -/
def stuckFits (stuck : Bytes) : Bool := decide (stuck.length ≤ 256)

/-- Offsets lie in a sector of at most 65,536 bytes (R1). -/
def keptFits (kept : List (Nat × Byte)) : Bool := kept.all fun p => decide (p.1 < 65536)

/-- The transaction codes of the table (11.8). -/
def knownTransaction (c : Byte) : Bool := c ∈ [0x3A, 0x5C, 0x6E, 0x71, 0x73, 0x75]

/-- A command is well formed. -/
def Instr.wf : Instr → Bool
  | .powerOn | .nreset | .bootRead _ | .bootReadArrival _ _ | .answerRead _ _ | .statusRead _ | .eventClear _ _
  | .eventMask _ _ | .gatherWindowClose | .holdDeadline _ | .contactExpiry _ | .trialDeadline _ | .grantExpiry _
  | .ownerButtonPress | .ownerButtonRelease | .ownerButtonHoldExpiry | .statBlinkToggle | .internalReadEnd _
  | .fuseAttemptEnd _ | .cryptoJobEnd | .flashArbitration | .bootChoice _ | .commitStart | .requestFrameDiscarded _ _
  | .fuseBankReadEnd => true
  | .bootReadEnd _ waited clocked => decide (waited ≤ clocked)
  | .unknownTransactionCode _ code => !knownTransaction code
  | .unknownRequest _ _ code payload => !knownCode code && payloadFits payload
  | .activateNext _ _ p => payloadFits p && modeFits 0 p
  | .activateNow _ _ p => payloadFits p && modeFits 1 p
  | .activateInstall _ _ p => payloadFits p && modeFits 2 p
  | .lockoutExpiry entry => decide (entry < 32)
  | .programTimeLimit stuck | .programEnd stuck => stuckFits stuck
  | .eraseTimeLimit kept | .sectorEraseEnd kept => keptFits kept
  | .identify _ _ p | .masterState _ _ p | .announce _ _ p | .restart _ _ p | .partReset _ _ p | .settingsRead _ _ p
  | .settingsWrite _ _ p | .stageBegin _ _ p | .stageData _ _ p | .stageEnd _ _ p | .stageAbort _ _ p | .slotQuery _ _ p
  | .trialCheck _ _ p | .slotErase _ _ p | .keyCreate _ _ p | .keyDestroy _ _ p | .keyInfo _ _ p | .keyFind _ _ p
  | .keyPublic _ _ p | .keySign _ _ p | .keyAgree _ _ p | .keyMac _ _ p | .derivePush _ _ p | .derivePop _ _ p
  | .deriveStore _ _ p | .extend _ _ p | .lockCell _ _ p | .readCells _ _ p | .readLog _ _ p | .attest _ _ p | .claim _ _ p
  | .credVerify _ _ p | .credPut _ _ p | .credGet _ _ p | .credDelete _ _ p | .credList _ _ p | .grantClose _ _ p
  | .relinquish _ _ p | .fuseIdentity _ _ p | .fuseSigner _ _ p | .closeManufacture _ _ p => payloadFits p

end Sys2Proof
end

