-- ==== Sys2Proof/Safety.lean ====
section
/-! DEFINITION. What claims about commands and runs are made of: the form a state keeps between steps, how the fuses may
change, when a port takes a request, and what a taken request, a submitted job and a submitted write leave. -/

namespace Sys2Proof.Machine

/-! ### States between steps -/

/-- The memory of the flash array has its canonical form (log entry 4). -/
def State.ok (s : State) : Prop := Memory.wf s.flash = true

/-- Every fuse that is blown in `f` is blown in `g` (R38). -/
def Fuses.Kept (f g : Fuses) : Prop := ∀ x : FuseId, f.blown x = true → g.blown x = true

/-- STAT shows the first condition of R114's table that holds; continuous on and off stay what they are (R114). -/
def State.statRight (s : State) : Prop :=
  s.stat.priority = s.statPriority ∧ (s.stat.priority = 1 → s.stat.on = true) ∧ (s.stat.priority = 4 → s.stat.on = false)

/-- The step ends in a next state. -/
def Runs (s : State) : Prop := ∃ t, step s = .next t

/-! ### Requests -/

/-- A request frame of `m` is accepted and reaches its owner: the tests of R180, R181 and R182 pass. -/
def State.takes (s : State) (m : Master) (n : RequestName) (payload : Bytes) : Prop :=
  (s.sup m).phase ≠ .held ∧ (s.port m).req ≠ .working ∧ payload.length ≤ 1024 ∧ s.available m n = true ∧
    fits n.layout payload = true

/-- A request frame of `m` is accepted, whatever becomes of it (R180, R181). -/
def State.accepts (s : State) (m : Master) (payload : Bytes) : Prop :=
  (s.sup m).phase ≠ .held ∧ (s.port m).req ≠ .working ∧ payload.length ≤ 1024

/-- The name a request accepted next on the port of `m` has. -/
def State.nextReq (s : State) (m : Master) : Req := ⟨m, (s.port m).no + 1⟩

/-- `s` after a request of `m` was accepted and answered: the answer is in the buffer with the request's tag, the port is
ANSWERED, ANSWER is raised (R181, R183). -/
def State.told (s : State) (m : Master) (tag code : Byte) (st : Status) (payload : Bytes) : State :=
  s.modPort m fun p =>
    { p with req := .answered, no := p.no + 1, tag := tag, code := code, answer := some ⟨st, tag, payload⟩,
             flags := p.flags ||| flagAnswer, work := .none, out := [] }

/-- `s` after a request of `m` was accepted and waits for `w`: the buffer is empty, the port is WORKING (R181). -/
def State.working (s : State) (m : Master) (tag code : Byte) (w : Work) : State :=
  s.modPort m fun p =>
    { p with req := .working, no := p.no + 1, tag := tag, code := code, answer := none, work := w, out := [] }

/-! ### Jobs and writes -/

/-- The engine after a block has submitted a job: kept back while its source has a job in the queue, started in an empty
queue with its copy of the key, else at the queue's end (R55, R56). -/
def Engine.given (e : Engine) (j : Job) (copy : Bytes) (inUse : Option (Nat × Byte)) : Engine :=
  if e.queue.any fun k => decide (k.source = j.source) then { e with waiting := e.waiting ++ [j] }
  else if e.queue.isEmpty then { e with queue := [{ j with started := true, copy := copy, inUse := inUse }] }
  else { e with queue := e.queue ++ [j] }

/-- `s` after a job that names no key was submitted. -/
def State.given (s : State) (j : Job) : State := { s with engine := s.engine.given j [] none }

/-- The write that a write becomes when it is begun under the next store sequence (R24). -/
def State.begun (s : State) (w : Write) : ActiveWrite :=
  { write := w, seq := s.store.nextSeq, tag := [], step := .tag, sector := 0, offset := 0, pages := [], attempt := 1, old := none }

/-- The Record Store takes writes, and has a sequence left for one it begins at once (R24, R33). -/
def State.storeTakes (s : State) : Prop :=
  s.store.cond ≠ .unmounted ∧ (s.store.cur = none → s.store.writes = [] ∧ s.store.nextSeq ≤ maxSeq)

/-- `s` after a write was submitted: it waits behind the begun write, or is begun, and the job of its record tag is
submitted (R24). -/
def State.writing (s : State) (w : Write) : State :=
  match s.store.cur with
  | some _ => s.modStore fun st => { st with writes := st.writes ++ [w] }
  | none =>
    let t := s.modStore fun st => { st with nextSeq := st.nextSeq + 1, cur := some (s.begun w) }
    let job : Job := .mk' .store (.mac (tagInput w.type w.id s.store.nextSeq w.payload) true) .record .writeTag
    { t with engine := t.engine.given job (s.store.recordKey.getD []) none }

end Sys2Proof.Machine

namespace Sys2Proof

open Machine

/-! ### Kinds of commands -/

/-- The request a command carries: its master, name, tag and payload. -/
def Instr.request : Instr → Option (Master × RequestName × Byte × Bytes)
  | .identify m t p => some (m, .identify, t, p)
  | .masterState m t p => some (m, .masterState, t, p)
  | .announce m t p => some (m, .announce, t, p)
  | .restart m t p => some (m, .restart, t, p)
  | .partReset m t p => some (m, .partReset, t, p)
  | .settingsRead m t p => some (m, .settingsRead, t, p)
  | .settingsWrite m t p => some (m, .settingsWrite, t, p)
  | .stageBegin m t p => some (m, .stageBegin, t, p)
  | .stageData m t p => some (m, .stageData, t, p)
  | .stageEnd m t p => some (m, .stageEnd, t, p)
  | .stageAbort m t p => some (m, .stageAbort, t, p)
  | .slotQuery m t p => some (m, .slotQuery, t, p)
  | .activateNext m t p => some (m, .activate, t, p)
  | .activateNow m t p => some (m, .activate, t, p)
  | .activateInstall m t p => some (m, .activate, t, p)
  | .trialCheck m t p => some (m, .trialCheck, t, p)
  | .slotErase m t p => some (m, .slotErase, t, p)
  | .keyCreate m t p => some (m, .keyCreate, t, p)
  | .keyDestroy m t p => some (m, .keyDestroy, t, p)
  | .keyInfo m t p => some (m, .keyInfo, t, p)
  | .keyFind m t p => some (m, .keyFind, t, p)
  | .keyPublic m t p => some (m, .keyPublic, t, p)
  | .keySign m t p => some (m, .keySign, t, p)
  | .keyAgree m t p => some (m, .keyAgree, t, p)
  | .keyMac m t p => some (m, .keyMac, t, p)
  | .derivePush m t p => some (m, .derivePush, t, p)
  | .derivePop m t p => some (m, .derivePop, t, p)
  | .deriveStore m t p => some (m, .deriveStore, t, p)
  | .extend m t p => some (m, .extend, t, p)
  | .lockCell m t p => some (m, .lockCell, t, p)
  | .readCells m t p => some (m, .readCells, t, p)
  | .readLog m t p => some (m, .readLog, t, p)
  | .attest m t p => some (m, .attest, t, p)
  | .claim m t p => some (m, .claim, t, p)
  | .credVerify m t p => some (m, .credVerify, t, p)
  | .credPut m t p => some (m, .credPut, t, p)
  | .credGet m t p => some (m, .credGet, t, p)
  | .credDelete m t p => some (m, .credDelete, t, p)
  | .credList m t p => some (m, .credList, t, p)
  | .grantClose m t p => some (m, .grantClose, t, p)
  | .relinquish m t p => some (m, .relinquish, t, p)
  | .fuseIdentity m t p => some (m, .fuseIdentity, t, p)
  | .fuseSigner m t p => some (m, .fuseSigner, t, p)
  | .closeManufacture m t p => some (m, .closeManufacture, t, p)
  | _ => none

/-- The port whose master a transaction begins on, for a command that stands for one. -/
def Instr.transaction (c : Instr) : Option Master :=
  match c with
  | .bootRead m => some m
  | .answerRead m _ => some m
  | .statusRead m => some m
  | .eventClear m _ => some m
  | .eventMask m _ => some m
  | .unknownTransactionCode m _ => some m
  | .unknownRequest m _ _ _ => some m
  | .requestFrameDiscarded m _ => some m
  | c => c.request.map (·.1)

/-- A part reset: the commands that may leave an abandoned program, erase or fuse attempt behind (R17, R48). -/
def Instr.resets : Instr → Bool
  | .powerOn => true
  | .nreset => true
  | .partReset _ _ _ => true
  | _ => false

/-- The end of a program, good or not (R3). -/
def Instr.endsProgram : Instr → Bool
  | .programEnd _ => true
  | .programTimeLimit _ => true
  | _ => false

/-- The end of a sector's erase, good or not (R9). -/
def Instr.endsErase : Instr → Bool
  | .sectorEraseEnd _ => true
  | .eraseTimeLimit _ => true
  | _ => false

/-- The end of a fuse attempt (R44). -/
def Instr.endsAttempt : Instr → Bool
  | .fuseAttemptEnd _ => true
  | _ => false

end Sys2Proof
end

