-- ==== Sys2Proof/Certificates/Slice0/Obligations.lean ====
section
/-! DEFINITION. The statements for the provers. A statement of a command's result is an equality with the whole next state, so that
it is the command's frame too: what the right side does not name is as before. `updateStat` evaluates the STAT output again
(R114). The premise that the inbox is empty says that no step has left a chain of inner notices unfinished (the model's choice, log
entry 16). -/

open Sys2Proof Sys2Proof.Machine

/-! ### The queue and time -/

/-- A step takes the command at the front of the queue, on the state with the queue's rest. -/
def Obligations.StepTakesTheFrontCommand : Prop :=
  ∀ (c : Instr) (rest : List Instr) (s : State), step { s with pending := c :: rest } = exec c { s with pending := rest }

/-- On an empty queue a millisecond passes, and nothing else happens: the clock, and the active time of a program that is not suspended
and of a RUNNING batch (the model's choice, log entry 2). -/
def Obligations.EmptyQueueLetsAMillisecondPass : Prop :=
  ∀ s : State, s.pending = [] → step s = .next { s with
    clock := s.clock + 1000
    ctl := { s.ctl with
      prog := s.ctl.prog.map fun p => if p.suspended then p else { p with active := p.active + 1000 }
      batch := s.ctl.batch.map fun b => if b.state = .running then { b with active := b.active + 1000 } else b } }

/-- Every command answers a next state in every state, and none touches the queue of commands. -/
def Obligations.CommandsKeepTheQueueAndAreNotRefused : Prop :=
  ∀ (c : Instr) (s : State), ∃ t, exec c s = .next t ∧ t.pending = s.pending

/-! ### Part resets -/

/-- POWER_ON, NRESET and a PART_RESET that is taken make a part reset with their cause; in OWNED a PART_RESET needs APP's grant;
RADIO's and LINE's, and one without the grant, are refused with NOT_PERMITTED (R108). -/
def Obligations.PartResetsAreTaken : Prop :=
  ∀ s : State, exec .powerOn s = .next (s.partReset .power) ∧ exec .nreset s = .next (s.partReset .pin) ∧
    ∀ (m : Master) (tag : Byte) (payload : Bytes),
      (s.takes .app .partReset payload → (s.creds.lifecycle = .owned → s.granted .app = true) →
        exec (.partReset .app tag payload) s = .next (s.partReset .request)) ∧
      (s.takes .app .partReset payload → s.creds.lifecycle = .owned → s.granted .app = false →
        exec (.partReset .app tag payload) s = .next (s.told .app tag 0x05 .notPermitted [0])) ∧
      (s.accepts m payload → m ≠ .app → exec (.partReset m tag payload) s = .next (s.told m tag 0x05 .notPermitted [0]))

/-- What a part reset leaves in the blocks: the Flash Controller's initial state (R17), the Crypto Engine idle and empty (R65), no
fuse job and no pending fuse work (R48), the store UNMOUNTED (R33), every master HELD(RESTARTING) (R90), the ports as a port reset
leaves them (R188), no stack (R145), the measurement sets at their part-reset values (R150), every grant closed (R168), the
button detector WAITING with no press established (R175; log entry 5), and the cause recorded (R108). That the Timebase starts at 0 and
the hold deadline is 50 ms after it is R90's and R93's. -/
def Obligations.PartResetLeavesPartResetValues : Prop :=
  ∀ (s : State) (cause : ResetCause) (m : Master),
    let t := s.partReset cause
    t.ctl = { reads := [], prog := none, wait := [], batch := none, next := [], outstanding := [], retired := [] } ∧
    t.engine = { queue := [], waiting := [] } ∧
    t.bank.jobs = [] ∧ t.bank.active = none ∧ t.bank.pendingWork = none ∧ t.bank.reading = true ∧
    t.store.cond = .unmounted ∧ t.store.integrity = 0 ∧
    (t.sup m).phase = .held ∧ (t.sup m).hold = some .restarting ∧ (t.sup m).holdDeadline = some 50 ∧
    (t.sup m).window = none ∧ (t.sup m).served = .none ∧ (t.sup m).contact = none ∧ (t.sup m).trial = none ∧
    (t.sup m).fault = .none ∧
    (t.port m).req = .empty ∧ (t.port m).answer = none ∧ (t.port m).flags = 0 ∧ (t.port m).mask = flagAnswer ∧
    t.alertAsserted m = false ∧ t.resetAsserted m = true ∧
    t.keys.stackOf.get m = [] ∧
    (t.measSet m).cells = List.replicate 8 zeroValue ∧ (t.measSet m).locks = List.replicate 8 false ∧
    (t.measSet m).log = [] ∧ (t.measSet m).releases = 0 ∧ t.meas.sequence = 0 ∧
    t.creds.grants.get m = none ∧ t.creds.button = .waiting ∧ t.creds.pressed = false ∧ t.creds.wiping = false ∧
    t.resetCause = cause ∧ t.clock = 0 ∧ t.inbox = []

/-- What a part reset leaves of the array and the fuses: every location outside the run of an unfinished program and the sector
under erase reads as before (R17); the fuses are as before, but for the one under attempt, which stands intact or blown (R48). -/
def Obligations.PartResetKeepsArrayAndFuses : Prop :=
  ∀ (s : State) (cause : ResetCause),
    (Memory.wf s.flash = true → ∀ a : Nat,
      (∀ p, s.ctl.prog = some p → a < p.op.addr ∨ p.op.addr + p.op.data.length ≤ a) →
      (∀ x, s.ctl.underErase = some x → a < x.base ∨ x.base + x.size ≤ a) →
      memRead (s.partReset cause).flash a = memRead s.flash a) ∧
    (s.bank.underAttempt = none → (s.partReset cause).fuses = s.fuses) ∧
    (∀ f, s.bank.underAttempt = some f →
      (s.partReset cause).fuses = s.fuses ∨ (s.partReset cause).fuses = s.fuses.blow f)

/-! ### What the Port Interface tests -/

/-- A transaction of a HELD master is ignored: nothing changes (R180). -/
def Obligations.HeldMastersTransactionsAreIgnored : Prop :=
  ∀ (c : Instr) (m : Master) (s : State), c.transaction = some m → (s.sup m).phase = .held → s.inbox = [] →
    s.statRight → exec c s = .next s

/-- A transaction code outside the table raises PROTO (R180). A frame that comes while the port is WORKING is discarded with OVERRUN;
else one whose length is over 1,024, whose byte count is not 6 + length, or whose CRC-16 is wrong is discarded with FRAME_ERR (R181).
None does anything else; no byte is driven but 0xFF (R180; log entry 11). A frame whose transaction was ignored at its code byte, or
ended by a master reset, does nothing (R180); that it comes as this command, with no bytes, is the model's choice (log entry 25). -/
def Obligations.DiscardedFramesRaiseTheirFlag : Prop :=
  ∀ (m : Master) (s : State), (s.sup m).phase ≠ .held →
    let flagged := fun (flag : Byte) => s.modPort m fun p => { p with flags := p.flags ||| flag, out := [] }
    (∀ code : Byte, code ∉ [0x3A, 0x5C, 0x6E, 0x71, 0x73, 0x75] →
      exec (.unknownTransactionCode m code) s = .next (flagged 0x08)) ∧
    exec (.requestFrameDiscarded m none) s = .next s ∧
    (∀ frame, (s.port m).req = .working → exec (.requestFrameDiscarded m (some frame)) s = .next (flagged 0x04)) ∧
    (∀ frame, (s.port m).req ≠ .working →
      (1024 < leNat (slice 2 2 frame) ∨ frame.length ≠ 6 + leNat (slice 2 2 frame) ∨
        frame.drop (4 + leNat (slice 2 2 frame)) ≠ crcBytes (frame.take (4 + leNat (slice 2 2 frame)))) →
      exec (.requestFrameDiscarded m (some frame)) s = .next (flagged 0x02)) ∧
    (∀ c n tag payload, c.request = some (m, n, tag, payload) → c.wf = true → (s.port m).req = .working → s.inbox = [] →
      s.statRight → exec c s = .next (flagged 0x04))

/-- The tests the Port Interface makes of an accepted request, in order: a code outside the table is answered UNKNOWN_REQUEST, an
unavailable request NOT_PERMITTED, a payload that does not fit BAD_REQUEST; the request changes nothing (R182). -/
def Obligations.PortTestsAcceptedRequestsInOrder : Prop :=
  ∀ (s : State) (m : Master) (tag : Byte) (payload : Bytes), s.accepts m payload →
    (∀ code, (∀ n : RequestName, n.code ≠ code) →
      exec (.unknownRequest m tag code payload) s = .next (s.told m tag code .unknownRequest [0])) ∧
    (∀ c n, c.request = some (m, n, tag, payload) → c.wf = true → s.inbox = [] → s.statRight →
      (s.available m n = false → exec c s = .next (s.told m tag n.code .notPermitted [0])) ∧
      (s.available m n = true → fits n.layout payload = false → exec c s = .next (s.told m tag n.code .badRequest [0])))

/-! ### Transactions -/

/-- ANSWER_READ drives the answer frame when ANSWERED, the NONE frame when EMPTY or WORKING, and 0xFF after the frame's end; it
changes nothing else (R184). -/
def Obligations.AnswerReadReturnsTheAnswerFrame : Prop :=
  ∀ (m : Master) (clocked : Nat) (s : State), (s.sup m).phase ≠ .held →
    let sent := fun (body : Bytes) =>
      s.modPort m fun p => { p with out := ((body ++ crcBytes body) ++ List.replicate clocked 0xFF#8).take clocked }
    (∀ a, (s.port m).req = .answered → (s.port m).answer = some a →
      exec (.answerRead m clocked) s = .next (sent ([a.status.code, a.tag] ++ le 2 a.payload.length ++ a.payload))) ∧
    ((s.port m).req = .empty → exec (.answerRead m clocked) s = .next (sent [0xFE, 0])) ∧
    ((s.port m).req = .working → exec (.answerRead m clocked) s = .next (sent [0xFE, 1]))

/-- STATUS_READ drives four bytes: the request state code, the flags that are raised and unmasked, the phase code, the lifecycle
code with its top bit set during a wipe; it changes nothing else (R185). -/
def Obligations.StatusReadReturnsFourBytes : Prop :=
  ∀ (m : Master) (s : State), (s.sup m).phase ≠ .held →
    exec (.statusRead m) s = .next (s.modPort m fun p =>
      { p with out := [(s.port m).req.code, (s.port m).flags &&& (s.port m).mask, (s.sup m).phaseCode,
                       s.creds.lifecycle.code ||| (if s.creds.wiping then 0x80#8 else 0#8)] })

/-- EVENT_CLEAR clears the flags whose bits are 1 and leaves the others; EVENT_MASK replaces the mask; neither drives a byte but 0xFF
(R180; log entry 11); ALERT is asserted exactly while some flag is raised with its mask bit set (R187). -/
def Obligations.EventClearAndMaskDriveAlert : Prop :=
  ∀ (m : Master) (bits : Byte) (s : State),
    (s.alertAsserted m = true ↔ ∃ i, i < 8 ∧ (s.port m).flags.getLsbD i = true ∧ (s.port m).mask.getLsbD i = true) ∧
    ((s.sup m).phase ≠ .held → ∃ t u,
      exec (.eventClear m bits) s = .next t ∧ exec (.eventMask m bits) s = .next u ∧
      (∀ i, (t.port m).flags.getLsbD i = ((s.port m).flags.getLsbD i && !bits.getLsbD i)) ∧ (u.port m).mask = bits ∧
      s.modPort m (fun p => { p with flags := (t.port m).flags, out := [] }) = t ∧
      s.modPort m (fun p => { p with mask := bits, out := [] }) = u)

/-- A BOOT_READ of a BOOTING master begins a transaction. With the window PENDING its address phase only keeps the address; with the
window OPEN on the rescue image, or on a slot past the body, no boot read arrives (R16, R99, R100). Inside the body the boot read of
the rest of the body arrives: on a sector with an erase outstanding it waits (R6); else it is granted while the array is FREE or
READING; while a program is active, suspending it (R13); while a batch is RUNNING, suspending it with its suspend count raised by 1
(R10), unless the count is 256, when it waits (R11). That the body is the one of the manifest the slot has at present is the model's
choice (log entry 63). -/
def Obligations.BootReadArrivesAtTheArray : Prop :=
  ∀ (m : Master) (s : State), s.inbox = [] → (s.sup m).phase = .booting →
    (∀ op ∈ s.ctl.reads, op.by_ ≠ .boot m) → (∀ op, Waiting.read op ∈ s.ctl.wait → op.by_ ≠ .boot m) →
    exec (.bootRead m) s = .next (s.modPort m fun p => { p with boot := some ⟨none, 0, false, false⟩, out := [] }).updateStat ∧
    ∀ (a : BitVec 24), (s.port m).boot = some ⟨none, 0, false, false⟩ →
      let goes := fun (ctl : FlashCtl) (opened delayed : Bool) =>
        exec (.bootReadArrival m a) s = .next (({ s with ctl := ctl } : State).modPort m fun p =>
          { p with boot := some ⟨some a.toNat, 0, opened, delayed⟩ }).updateStat
      ((s.sup m).window = some .pending → goes s.ctl false false) ∧
      ((s.sup m).window = some .open → (s.sup m).served = .rescue → goes s.ctl true false) ∧
      (∀ n : SlotNo, (s.sup m).window = some .open → (s.sup m).served = .slot n →
        let len := manifestLength (s.slot ⟨m, n⟩).mf
        let op : ReadOp := ⟨.boot m, ⟨(SlotId.mk m n).bodyAddr a.toNat, len - a.toNat⟩⟩
        let waits := { s.ctl with wait := s.ctl.wait ++ [.read op] }
        let granted := { s.ctl with reads := s.ctl.reads ++ [op] }
        (len ≤ a.toNat → goes s.ctl true false) ∧
        (a.toNat < len →
          (s.ctl.held op.run = true → goes waits true true) ∧
          (s.ctl.held op.run = false →
            ((∀ b, s.ctl.batch = some b → b.state ≠ .running) →
              (s.ctl.prog = none → goes granted true false) ∧
              (∀ p, s.ctl.prog = some p → goes { granted with prog := some { p with suspended := true } } true false)) ∧
            (∀ b, s.ctl.batch = some b → b.state = .running →
              (b.suspends < 256 →
                goes { granted with batch := some { b with state := .suspended, suspends := b.suspends + 1 } } true false) ∧
              (256 ≤ b.suspends → goes waits true true)))))

/-- Chip select rises on a BOOT_READ, not clocked past window address 0xFFFFFF. Served from an OPEN window on a slot, it drove the
body's bytes, 0xFF past the body, and 0xFF for the bytes clocked while its boot read waited; a boot read in progress ends, and a
program it had suspended resumes (R13, R16, R99); one that still waits leaves the wait list, and every byte was 0xFF (R16). From the
Rescue ROM it drove the ROM's bytes, 0xFF past them (R99). While the window was PENDING every byte was 0xFF (R100). How many bytes were
clocked, and how many of them while the read waited, are the command's operands (the model's choice, log entry 11), and so is it that
the run of a suspended program shows the bytes from before it (log entry 42), and that the body is the one of the manifest the slot
has at present (log entry 63). -/
def Obligations.BootReadEndDrivesTheWindow : Prop :=
  ∀ (m : Master) (a n w : Nat) (s : State), s.inbox = [] → a + n ≤ 16777216 →
    let ends := fun (ctl : FlashCtl) (out : Bytes) =>
      exec (.bootReadEnd m w n) s = .next (({ s with ctl := ctl } : State).modPort m fun p =>
        { p with boot := none, out := out }).updateStat
    let unread := ∀ op ∈ s.ctl.reads, op.by_ ≠ .boot m
    let unwaited := ∀ op, Waiting.read op ∈ s.ctl.wait → op.by_ ≠ .boot m
    (∀ (k : SlotNo) (delayed : Bool), (s.port m).boot = some ⟨some a, 0, true, delayed⟩ → (s.sup m).served = .slot k →
      let len := manifestLength (s.slot ⟨m, k⟩).mf
      (∀ op, s.ctl.reads = [op] → op.by_ = .boot m → unwaited →
        let out := (List.range n).map fun i =>
          if len ≤ a + i ∨ (delayed = true ∧ i < w) then 0xFF#8 else memRead s.flash ((SlotId.mk m k).bodyAddr (a + i))
        (s.ctl.wait = [] → s.ctl.prog = none → s.ctl.batch = none → ends { s.ctl with reads := [] } out) ∧
        (∀ p, s.ctl.prog = some p → p.suspended = true → (∀ b, s.ctl.batch = some b → b.state ≠ .running) →
          ends { s.ctl with reads := [], prog := some { p with suspended := false } } out)) ∧
      (unread → (∃ op, Waiting.read op ∈ s.ctl.wait ∧ op.by_ = .boot m) →
        ends { s.ctl with wait := s.ctl.wait.filter fun x => match x with
          | .read r => !decide (r.by_ = .boot m)
          | .program _ => true } (List.replicate n 0xFF#8)) ∧
      (unread → unwaited → len ≤ a → ends s.ctl (List.replicate n 0xFF#8))) ∧
    (unread → unwaited →
      ((s.port m).boot = some ⟨some a, 0, true, false⟩ → (s.sup m).served = .rescue →
        ends s.ctl ((List.range n).map fun i => if a + i < 65536 then Config.rescueRom (a + i) else 0xFF#8)) ∧
      ((s.port m).boot = some ⟨some a, 0, false, false⟩ → ends s.ctl (List.replicate n 0xFF#8)))

/-! ### General requests -/

/-- IDENTIFY's answer, from the state as it stands; it is available in every phase, lifecycle and condition of the store, and
changes nothing; the serial of the fuse view is 0 while the identity row is not PROGRAMMED (R189). -/
def Obligations.IdentifyAnswersFromTheState : Prop :=
  (∀ (m : Master) (s : State), s.available m .identify = true) ∧
  (∀ f : Fuses, f.view.identity ≠ .programmed → f.view.serial = 0) ∧
  ∀ (m : Master) (tag : Byte) (payload : Bytes) (s : State), s.takes m .identify payload →
    exec (.identify m tag payload) s = .next (s.told m tag 0x01 .ok
      ([0x30, 0x03, 0x02] ++ le 8 s.bank.view.serial.toNat ++
        [s.creds.lifecycle.code, if s.creds.wiping then 1 else 0, s.resetCause.code] ++
        le 4 (if s.store.cond = .unmounted then 0 else s.store.epoch) ++ [BitVec.ofNat 8 s.store.retiredList.length] ++
        le 2 (min 65535 s.store.integrity) ++ [if s.bank.pendingWork.isSome then 1 else 0]))

/-- MASTER_STATE reports the named master's record, to APP for any master and to the others for themselves; with the clear option
the fault reason is NONE afterwards, the answer still reports it, and no flag is cleared; it is available in BOOTING (R110). -/
def Obligations.MasterStateReportsTheRecord : Prop :=
  (∀ (m : Master) (s : State), s.available m .masterState = true) ∧
  ∀ (m : Master) (tag : Byte) (payload : Bytes) (s : State), s.takes m .masterState payload →
    exec (.masterState m tag payload) s = .next (
      match Master.ofIdx (byteAt 0 payload).toNat with
      | none => s.told m tag 0x02 .badRequest [0]
      | some target =>
        let x := s.sup target
        let report := [x.phaseCode, holdCode x.hold, x.served.code, servedStateCode x.servedState, x.fault.code,
          BitVec.ofNat 8 x.bootFailures] ++
          (match x.trial with
           | some w => [BitVec.ofNat 8 w.good, BitVec.ofNat 8 w.errors]
           | none => [0xFF, 0xFF])
        if 1 < (byteAt 1 payload).toNat then s.told m tag 0x02 .badRequest [0]
        else if m ≠ .app ∧ m ≠ target then s.told m tag 0x02 .notPermitted [0]
        else if byteAt 1 payload = 1 then (s.told m tag 0x02 .ok report).modSup target fun x => { x with fault := .none }
        else s.told m tag 0x02 .ok report)

/-- ANNOUNCE with an OPEN window and no boot failure counted makes the master RUNNING, closes the window, removes the contact deadline
and is answered with the served slot and state (R101); for a trial it starts the trial window and the answer carries its token
(R104); in any other phase or window it is refused with STATE; with boot failures counted it waits for the removal of the
BOOTFAIL record. -/
def Obligations.AnnounceEndsTheBootAttempt : Prop :=
  ∀ (m : Master) (tag : Byte) (payload : Bytes) (s : State), s.takes m .announce payload → s.inbox = [] →
    let open_ := (s.sup m).phase = .booting ∧ (s.sup m).window = some .open
    let running := fun (x : MasterRec) => { x with phase := .running, window := none, contact := none }
    (¬ open_ → exec (.announce m tag payload) s = .next (s.told m tag 0x03 .state [0]).updateStat) ∧
    (open_ → (s.sup m).bootFailures = 0 → (s.sup m).servedState ≠ some .trial → (s.sup m).trial = none →
      exec (.announce m tag payload) s =
        .next ((s.modSup m running).told m tag 0x03 .ok
          [(s.sup m).served.code, servedStateCode (s.sup m).servedState]).updateStat) ∧
    (open_ → (s.sup m).bootFailures = 0 → (s.sup m).servedState = some .trial →
      let token := (List.range 4).map fun i => Config.randomByte (s.rng + i)
      let w : TrialWindow :=
        { last := s.clock / 1000, good := 0, errors := 0, token := token, deadline := s.clock / 1000 + s.settings.trialMax,
          min := s.settings.trialMin, max := s.settings.trialMax, limit := s.settings.errorLimit }
      exec (.announce m tag payload) s =
        .next (({ s with rng := s.rng + 4 }.modSup m fun x => { running x with trial := some w }).told m tag 0x03 .ok
          ([(s.sup m).served.code, 0] ++ token)).updateStat) ∧
    (open_ → (s.sup m).bootFailures ≠ 0 → (s.sup m).servedState ≠ some .trial → s.storeTakes →
      exec (.announce m tag payload) s =
        .next (((s.modSup m running).working m tag 0x03 .other).writing
          ⟨.bootfail, m.idx, [], true, .bootFailClear m (some (s.nextReq m))⟩).updateStat)

/-- RESTART of a HELD(RESTARTING) master changes nothing and is answered OK; of a HELD(RECOVERY) one whose reset line has not yet
been asserted for 50 ms it makes the hold RESTARTING; RADIO and LINE may name only themselves (R107, R98). -/
def Obligations.RestartOfAHeldMaster : Prop :=
  ∀ (m target : Master) (tag : Byte) (s : State), s.takes m .restart [BitVec.ofNat 8 target.idx] → s.inbox = [] →
    let c := Instr.restart m tag [BitVec.ofNat 8 target.idx]
    (m ≠ .app → m ≠ target → exec c s = .next (s.told m tag 0x04 .notPermitted [0]).updateStat) ∧
    (m = .app → (s.sup target).phase = .held → (s.sup target).hold = some .restarting →
      exec c s = .next (s.told m tag 0x04 .ok []).updateStat) ∧
    (m = .app → (s.sup target).phase = .held → (s.sup target).hold = some .recovery →
      s.clock / 1000 < (s.sup target).assertedAt + 50 →
      exec c s = .next ((s.modSup target fun x =>
        { x with hold := some .restarting, holdDeadline := some (x.assertedAt + 50) }).told m tag 0x04 .ok []).updateStat)

/-- RESTART of a BOOTING or RUNNING master that owns no staging session makes a master reset: the reset line is asserted, hold,
deadline, window and trial as R92 gives, the port reset as R188 gives, the stack emptied, the measurement set cleared but for its
release count, the grant closed; the fault reason is RESTARTED when another master asked, unchanged when the master did. The other
masters, the slots, the store, the tables, the fuses and the array stay as they were (R92, R107). -/
def Obligations.RestartMakesAMasterReset : Prop :=
  ∀ (m target : Master) (tag : Byte) (s : State), s.takes m .restart [BitVec.ofNat 8 target.idx] → s.inbox = [] →
    (m = .app ∨ m = target) → (s.sup target).phase ≠ .held →
    (∀ i : SlotId, ¬ ((s.slot i).owner = some target ∧ (s.slot i).state.staging = true)) →
    ∃ t, exec (.restart m tag [BitVec.ofNat 8 target.idx]) s = .next t ∧
      t.resetAsserted target = true ∧
      t.sup target = { s.sup target with
        phase := .held, hold := some .restarting, holdDeadline := some (s.clock / 1000 + 50), window := none, served := .none,
        servedState := none, contact := none, trial := none, work := .none, skip := none, assertedAt := s.clock / 1000,
        fault := if m = target then (s.sup target).fault else .restarted } ∧
      (t.port target).req = .empty ∧ (t.port target).answer = none ∧ (t.port target).mask = flagAnswer ∧
      (t.port target).flags = (if m = target then 0 else flagFault) ∧
      (m ≠ target → (t.port m).answer = some ⟨.ok, tag, []⟩ ∧ (t.port m).req = .answered) ∧
      t.keys.stackOf.get target = [] ∧ t.creds.grants.get target = none ∧
      t.measSet target = { cells := List.replicate 8 zeroValue, locks := List.replicate 8 false, log := [],
                           releases := (s.measSet target).releases } ∧
      (∀ k, k ≠ target → t.sup k = s.sup k ∧ t.measSet k = s.measSet k ∧ t.keys.stackOf.get k = s.keys.stackOf.get k ∧
        t.creds.grants.get k = s.creds.grants.get k) ∧
      (∀ k, k ≠ target → k ≠ m → t.port k = s.port k) ∧
      t.image.slots = s.image.slots ∧ t.keys.table = s.keys.table ∧ t.keys.gens = s.keys.gens ∧ t.creds.table = s.creds.table ∧
      t.creds.lifecycle = s.creds.lifecycle ∧ t.store = s.store ∧ t.bank = s.bank ∧ t.fuses = s.fuses ∧ t.flash = s.flash ∧
      t.clock = s.clock ∧ t.resetCause = s.resetCause

/-- SETTINGS_READ returns the effective settings with their source, or one record's values, NOT_FOUND when it has none; it changes
nothing (R113). -/
def Obligations.SettingsReadReturnsASet : Prop :=
  ∀ (m : Master) (tag : Byte) (payload : Bytes) (s : State), s.takes m .settingsRead payload →
    exec (.settingsRead m tag payload) s = .next (
      if byteAt 0 payload = 0 then
        s.told m tag 0x06 .ok
          (match s.creds.ownerSettings, s.creds.factorySettings with
           | some v, _ => 0 :: v.bytes
           | none, some v => 1 :: v.bytes
           | none, none => 2 :: Settings.default.bytes)
      else if byteAt 0 payload = 1 then
        (match s.creds.factorySettings with
         | some v => s.told m tag 0x06 .ok (1 :: v.bytes)
         | none => s.told m tag 0x06 .notFound [0])
      else if byteAt 0 payload = 2 then
        (match s.creds.ownerSettings with
         | some v => s.told m tag 0x06 .ok (0 :: v.bytes)
         | none => s.told m tag 0x06 .notFound [0])
      else s.told m tag 0x06 .badRequest [0])

/-- SETTINGS_WRITE of values in their ranges is WORKING with a write of the record, SETTINGS FACTORY or, in OWNED with the
requester's grant open, SETTINGS OWNER; without the grant it is refused with NOT_PERMITTED, out of range with BAD_REQUEST
(R112). -/
def Obligations.SettingsWriteWritesTheRecord : Prop :=
  ∀ (m : Master) (tag : Byte) (payload : Bytes) (s : State), s.takes m .settingsWrite payload → s.inbox = [] → s.storeTakes →
    exec (.settingsWrite m tag payload) s = .next (State.updateStat (
      let v := Settings.ofBytes payload
      if s.creds.lifecycle = .owned ∧ s.granted m = false then s.told m tag 0x07 .notPermitted [0]
      else if v.inRange = false then s.told m tag 0x07 .badRequest [0]
      else if s.creds.lifecycle = .owned then
        (s.working m tag 0x07 .other).writing ⟨.settingsOwner, 0, v.bytes, false, .settings true v (s.nextReq m)⟩
      else (s.working m tag 0x07 .other).writing ⟨.settingsFactory, 0, v.bytes, false, .settings false v (s.nextReq m)⟩))

/-- TRIAL_CHECK: a check at the minimum or later with the window's token is good: the good count rises, the last accepted time and
the deadline move, a new token is drawn and answered. Any other is an error: the error count rises and a new token is answered with
TRIAL_ERROR. Without a trial window it is refused with STATE (R104). The checks that end a trial are not in this statement. That a
drawn token equal to the last is replaced by the number above it is the model's choice (log entry 8). -/
def Obligations.TrialCheckCountsGoodAndBad : Prop :=
  ∀ (m : Master) (tag : Byte) (payload : Bytes) (s : State), s.takes m .trialCheck payload → s.inbox = [] →
    let drawn := (List.range 4).map fun i => Config.randomByte (s.rng + i)
    let code : Byte := 0x16
    ((s.sup m).trial = none → exec (.trialCheck m tag payload) s = .next (s.told m tag code .state [0]).updateStat) ∧
    ∀ w, (s.sup m).trial = some w →
      let good := w.min ≤ s.clock / 1000 - w.last ∧ payload = w.token
      let token := if drawn = w.token then le 4 (leNat drawn + 1) else drawn
      (good → w.good < 2 →
        exec (.trialCheck m tag payload) s =
          .next (({ s with rng := s.rng + 4 }.modSup m fun x => { x with trial := some { w with
            good := w.good + 1, last := s.clock / 1000, deadline := s.clock / 1000 + w.max, token := token } }).told m tag code .ok
              (BitVec.ofNat 8 (w.good + 1) :: token)).updateStat) ∧
      (¬ good → w.errors + 1 < w.limit →
        exec (.trialCheck m tag payload) s =
          .next (({ s with rng := s.rng + 4 }.modSup m fun x => { x with trial := some { w with
            errors := w.errors + 1, token := token } }).told m tag code .trialError
              ([0, BitVec.ofNat 8 (w.errors + 1)] ++ token)).updateStat)

/-! ### Slots -/

/-- STAGE_BEGIN of a manifest that passes the tests of R72, for a master with no session and a target with no pending slot, is WORKING
with a DIGEST job of the signer public key (R73); without update authority it is refused with NOT_PERMITTED, during a commit with
CONFLICT, with a session or a pending slot with STATE, with a bad manifest with BAD_REQUEST and its detail. -/
def Obligations.StageBeginTestsThenDigestsTheSigner : Prop :=
  ∀ (m target : Master) (overwrite : Bool) (tag : Byte) (mf : Bytes) (s : State),
    let payload := [BitVec.ofNat 8 target.idx, if overwrite then 1 else 0] ++ mf
    let c := Instr.stageBegin m tag payload
    s.takes m .stageBegin payload → s.inbox = [] →
    (s.authority m target = false → exec c s = .next (s.told m tag 0x10 .notPermitted [0]).updateStat) ∧
    (s.authority m target = true →
      (s.commitInProgress = true → exec c s = .next (s.told m tag 0x10 .conflict [0]).updateStat) ∧
      (s.commitInProgress = false →
        ((s.session m).isSome = true ∨ (s.pendingSlot target).isSome = true →
          exec c s = .next (s.told m tag 0x10 .state [0]).updateStat) ∧
        (s.session m = none → s.pendingSlot target = none → s.stageReserved target = false →
          ∀ n, s.chooseSlot target overwrite = .inl n →
            (∀ d, s.manifestFailure target mf = some d →
              exec c s = .next (s.told m tag 0x10 .badRequest [d.code]).updateStat) ∧
            (s.manifestFailure target mf = none →
              exec c s = .next ((s.working m tag 0x10 (.stageDigest target overwrite mf)).given
                (.mk' (.port m) (.digest none (slice 48 64 mf) true) .none (.request (s.nextReq m)))).updateStat))))

/-- STAGE_DATA of a port whose session's slot is LOADING: another offset than the bytes received is OUT_OF_ORDER, data past the body
length is BAD_REQUEST, else the request is WORKING with its pages after those already queued, or its first page programming in a
free array; without such a session it is refused with STATE (R75). That no data at all is BAD_REQUEST (log entry 25), and that all
its pages go after those queued already, each waiting from the taking of its request (log entry 38), are the model's choices. -/
def Obligations.StageDataQueuesItsPages : Prop :=
  ∀ (m : Master) (tag : Byte) (payload : Bytes) (s : State), s.takes m .stageData payload → s.inbox = [] →
    let c := Instr.stageData m tag payload
    let offset := leNat (slice 0 4 payload)
    let data := payload.drop 4
    (s.loadingSession m = none → exec c s = .next (s.told m tag 0x11 .state [0]).updateStat) ∧
    ∀ i, s.loadingSession m = some i →
      (offset ≠ (s.slot i).received → exec c s = .next (s.told m tag 0x11 .outOfOrder [0]).updateStat) ∧
      (offset = (s.slot i).received →
        (manifestLength (s.slot i).mf < offset + data.length ∨ data = [] →
          exec c s = .next (s.told m tag 0x11 .badRequest [0]).updateStat) ∧
        (offset + data.length ≤ manifestLength (s.slot i).mf → data ≠ [] →
          let cut := pagesOf 8 (i.bodyAddr offset) data
          let pages := cut.zipIdx.map fun p => StagePage.mk (s.nextReq m) i p.1.1 p.1.2 (decide (p.2 + 1 = cut.length)) data.length
          let t := s.working m tag 0x11 (.stageData i)
          (s.image.pages ≠ [] →
            exec c s = .next ({ t with image := { s.image with pages := s.image.pages ++ pages } } : State).updateStat) ∧
          (∀ a b rest, cut = (a, b) :: rest → s.image.pages = [] → s.ctl.touchesRetired ⟨a, b.length⟩ = false →
            s.ctl.reads = [] → s.ctl.prog = none → s.ctl.batch = none → s.ctl.outstanding = [] →
            exec c s = .next ({ t with
              image := { s.image with pages := pages }
              ctl := { s.ctl with prog := some ⟨⟨.image, a, b⟩, 0, false⟩ } } : State).updateStat)))

/-- STAGE_END of a port whose session's slot is LOADING with every byte received: the slot is CHECKING, SLOT is raised, the request is
WORKING, and the chunked digest begins with the verification read of chunk 0 in a free array; a short count is refused with
BAD_REQUEST, no such session with STATE (R77, R70). -/
def Obligations.StageEndBeginsTheCheck : Prop :=
  ∀ (m : Master) (tag : Byte) (payload : Bytes) (s : State), s.takes m .stageEnd payload → s.inbox = [] →
    let c := Instr.stageEnd m tag payload
    (s.loadingSession m = none → exec c s = .next (s.told m tag 0x12 .state [0]).updateStat) ∧
    ∀ i, s.loadingSession m = some i →
      ((s.slot i).received ≠ manifestLength (s.slot i).mf →
        exec c s = .next (s.told m tag 0x12 .badRequest [0]).updateStat) ∧
      ((s.slot i).received = manifestLength (s.slot i).mf → s.image.reads = [] → (∀ k ∈ s.image.checks, k.check ≠ s.uid) →
        s.ctl.reads = [] → s.ctl.prog = none → s.ctl.batch = none → s.ctl.outstanding = [] →
        let t := (s.working m tag 0x12 (.stageEnd i)).setSlot i { s.slot i with state := .checking, received := 0 }
        exec c s = .next ({ t with
          uid := s.uid + 1
          image := { t.image with checks := s.image.checks ++ [⟨s.uid, i, s.nextReq m, 0, none⟩], reads := [s.uid] }
          ctl := { s.ctl with reads :=
            [⟨.internal .image, ⟨i.bodyAddr 0, min 4096 (manifestLength (s.slot i).mf)⟩⟩] } } : State).updateStat)

/-- STAGE_ABORT: a READY or TRIAL slot that no commit is for is written FAILED(ABORTED), the request WORKING until then; a LOADING
slot with no page queued is FAILED(ABORTED) at once, its write submitted and the request answered OK; a target with a commit in
progress is refused with CONFLICT, whatever its slot's state (R80, R89, R124), another with no pending slot with STATE, a master that
may not with NOT_PERMITTED (R80). -/
def Obligations.StageAbortFailsTheSlot : Prop :=
  ∀ (m target : Master) (tag : Byte) (s : State),
    s.takes m .stageAbort [BitVec.ofNat 8 target.idx] → s.inbox = [] → s.storeTakes →
    let c := Instr.stageAbort m tag [BitVec.ofNat 8 target.idx]
    let may := s.rescueBars m target = false ∧ s.mayAbort m target = true
    (¬ may → exec c s = .next (s.told m tag 0x13 .notPermitted [0]).updateStat) ∧
    (may → s.commitHolds target = true → exec c s = .next (s.told m tag 0x13 .conflict [0]).updateStat) ∧
    (may → s.commitHolds target = false →
      (s.pendingSlot target = none → exec c s = .next (s.told m tag 0x13 .state [0]).updateStat) ∧
      ∀ i, s.pendingSlot target = some i →
        let failed := { s.slot i with
          state := .failed, reason := some .aborted, tryMark := false, trialBoots := 0, received := 0, owner := none }
        ((s.slot i).state = .ready ∨ (s.slot i).state = .trial →
          exec c s = .next ((s.working m tag 0x13 .other).writing
            ⟨.slot, i.id, failed.payload, true, .abort (s.nextReq m) i⟩).updateStat) ∧
        ((s.slot i).state = .loading → s.image.pages = [] → (∀ k, k ≠ m → (s.port k).work ≠ .stageData i) →
          exec c s = .next (((s.setSlot i failed).writing
            ⟨.slot, i.id, failed.payload, true, .slotTaken i false⟩).told m tag 0x13 .ok []).updateStat))

/-- SLOT_QUERY returns both entries of the named master, slot 0 first, to APP for any master and to RADIO and LINE for themselves and
masters they hold update authority for; it changes nothing, commit or not (R83). That APP on the rescue image names only itself is
R190's column. -/
def Obligations.SlotQueryReturnsBothEntries : Prop :=
  ∀ (m : Master) (tag : Byte) (payload : Bytes) (s : State), s.takes m .slotQuery payload →
    let entry := fun (e : SlotEntry) =>
      let mf := e.manifest.getD []
      [e.state.code, if e.state = .failed then detailCode e.reason else 0,
        (if e.manifest.isSome then 1#8 else 0#8) ||| (if e.tryMark then 2#8 else 0#8) ||| (if e.checked then 4#8 else 0#8) |||
          (if e.erasePending then 8#8 else 0#8),
        BitVec.ofNat 8 e.trialBoots] ++ le 4 e.received ++ (mf.take 48 ++ List.replicate 48 0).take 48
    exec (.slotQuery m tag payload) s = .next (
      match Master.ofIdx (byteAt 0 payload).toNat with
      | none => s.told m tag 0x14 .badRequest [0]
      | some target =>
        if (m = .app ∧ (s.onRescue = true → target = .app)) ∨ (m ≠ .app ∧ (m = target ∨ s.authority m target = true)) then
          s.told m tag 0x14 .ok (byteAt 0 payload :: (entry (s.slot ⟨target, .s0⟩) ++ entry (s.slot ⟨target, .s1⟩)))
        else s.told m tag 0x14 .notPermitted [0])

/-- SLOT_ERASE of a FAILED or FALLBACK slot with no retired sector: its erase-pending mark is set, and one erase request names its
sectors in ascending order, which gather in a new batch when none exists; the request is WORKING. Another state, or one erase already
pending, is refused with STATE, a retired sector with STATE and detail DAMAGED, a commit with CONFLICT, a master without update
authority with NOT_PERMITTED (R84, R7). -/
def Obligations.SlotEraseGathersTheSectors : Prop :=
  ∀ (m : Master) (i : SlotId) (tag : Byte) (s : State),
    let payload := [BitVec.ofNat 8 i.master.idx, BitVec.ofNat 8 i.slot.idx]
    let c := Instr.slotErase m tag payload
    s.takes m .slotErase payload → s.inbox = [] →
    let e := s.slot i
    let idle := (e.state = .failed ∨ e.state = .fallback) ∧ e.erasePending = false
    (s.authority m i.master = false → exec c s = .next (s.told m tag 0x17 .notPermitted [0]).updateStat) ∧
    (s.authority m i.master = true → s.commitInProgress = true →
      exec c s = .next (s.told m tag 0x17 .conflict [0]).updateStat) ∧
    (s.authority m i.master = true → s.commitInProgress = false →
      (¬ idle → exec c s = .next (s.told m tag 0x17 .state [0]).updateStat) ∧
      (idle → s.slotRetired i = true → exec c s = .next (s.told m tag 0x17 .state [0x0D]).updateStat) ∧
      (idle → s.slotRetired i = false → s.ctl.outstanding = [] → s.ctl.batch = none →
        let t := (s.working m tag 0x17 .other).putSlot i { e with erasePending := true }
        exec c s = .next ({ t with
          uid := s.uid + 1
          image := { t.image with tasks := s.image.tasks ++ [⟨s.uid, i, s.nextReq m, false, false, i.sectors, false⟩] }
          ctl := { s.ctl with
            outstanding := i.sectors.map fun x => ⟨x, [.image s.uid], 0⟩
            batch := some ⟨.gathering, s.clock + 200, i.sectors, [], 0, 0⟩ } } : State).updateStat))

/-- ACTIVATE in modes NEXT and NOW: a READY slot without its try mark gets it by a critical write, the request WORKING until then;
NEXT of one that carries the mark is answered OK when its master is not in recovery. No READY slot is refused with STATE, a
commit with CONFLICT, a master without update authority with NOT_PERMITTED (R86, R87). -/
def Obligations.ActivateNextAndNowSetTheTryMark : Prop :=
  ∀ (m target : Master) (now : Bool) (tag : Byte) (s : State),
    let payload := [BitVec.ofNat 8 target.idx, if now then 1 else 0]
    let c := if now then Instr.activateNow m tag payload else Instr.activateNext m tag payload
    s.takes m .activate payload → s.inbox = [] →
    (s.authority m target = false → exec c s = .next (s.told m tag 0x15 .notPermitted [0]).updateStat) ∧
    (s.authority m target = true → s.commitInProgress = true →
      exec c s = .next (s.told m tag 0x15 .conflict [0]).updateStat) ∧
    (s.authority m target = true → s.commitInProgress = false →
      (s.readySlot target = none → exec c s = .next (s.told m tag 0x15 .state [0]).updateStat) ∧
      ∀ i, s.readySlot target = some i →
        ((s.slot i).tryMark = false → s.storeTakes →
          exec c s = .next ((s.working m tag 0x15 .other).writing
            ⟨.slot, i.id, { s.slot i with tryMark := true }.payload, true, .tryMark (s.nextReq m) i now⟩).updateStat) ∧
        ((s.slot i).tryMark = true → now = false → (s.sup target).hold ≠ some .recovery →
          exec c s = .next (s.told m tag 0x15 .ok []).updateStat))

/-- ACTIVATE in mode INSTALL, in MANUFACTURE, and COMMIT_START of the first waiting commit: a commit whose slot passes its tests, with
no commit record and no open journal, submits its JOURNAL-COMMIT with the slot's level and revoke mask, and is in progress; out of
MANUFACTURE the request is refused with NOT_PERMITTED (R88, R115 to R117). -/
def Obligations.InstallAndCommitStartOpenTheJournal : Prop :=
  ∀ (s : State) (q : CommitReq), s.inbox = [] → s.storeTakes → s.image.commit = none → s.image.journal = none →
    let mf := (s.slot q.sid).mf
    let journal : JournalCommit := ⟨q.master, q.slot, manifestLevel mf, maskSet (manifestMask mf), q.bodyDigest⟩
    let begun : Commit :=
      { cause := q, level := manifestLevel mf, revoke := maskSet (manifestMask mf), step := .journal, stopped := false,
        faulted := false, failedWrite := none }
    let write : Write := ⟨.journalCommit, 0, journal.payload, true, .journalOpen⟩
    (∀ rest, s.image.waitingCommits = q :: rest → s.commitTest q = true →
      exec .commitStart s = .next (({ s with
        image := { s.image with commit := some begun, waitingCommits := rest } } : State).writing write).updateStat) ∧
    ∀ (m : Master) (tag : Byte),
      let payload := [BitVec.ofNat 8 q.master.idx, 2]
      let c := Instr.activateInstall m tag payload
      s.takes m .activate payload → s.authority m q.master = true → s.image.waitingCommits = [] →
      (s.creds.lifecycle ≠ .manufacture → exec c s = .next (s.told m tag 0x15 .notPermitted [0]).updateStat) ∧
      (s.creds.lifecycle = .manufacture → s.readySlot q.master = none →
        exec c s = .next (s.told m tag 0x15 .state [0]).updateStat) ∧
      (s.creds.lifecycle = .manufacture → s.readySlot q.master = some q.sid → s.commitTest q = true →
        q.bodyDigest = manifestDigest mf → q.cause = .install → q.req = s.nextReq m →
        exec c s = .next (({ s.working m tag 0x15 .other with
          image := { s.image with commit := some begun } } : State).writing write).updateStat)

/-! ### Keys -/

/-- KEY_CREATE whose tests pass (R135): a SECRET VOLATILE key is PRESENT at once with 32 drawn bytes on the lowest free handle, and
the request is answered with handle and generation; a SECRET FACTORY or OWNER key's record is written first, its handle and label held
(R136); for a SIGN or AGREE key a KEYGEN job is submitted, the same held. A label in use is answered EXISTS, no room FULL. -/
def Obligations.KeyCreateMakesTheKey : Prop :=
  ∀ (m : Master) (tag : Byte) (k : NewKey) (payload : Bytes) (s : State), s.takes m .keyCreate payload → s.inbox = [] →
    KeyClass.ofCode (byteAt 0 payload) = some k.cls → KeyKind.ofCode (byteAt 1 payload) = some k.kind →
    k.usages = byteAt 2 payload → k.users = byteAt 3 payload →
    Binding.ofCode (byteAt 4 payload) (byteAt 5 payload) (slice 6 32 payload) = some k.binding →
    k.limit = (if leNat (slice 38 2 payload) = 0 then none else some (leNat (slice 38 2 payload))) →
    (k.limit = none ∨ k.cls = .volatile) → k.label = payload.drop 40 →
    s.keyBarred m factoryOnly k.cls = false → s.classAllowed k.cls = true → mayMake m k.users = true →
    keyForm k.kind k.usages k.users k.binding k.label = true →
    let c := Instr.keyCreate m tag payload
    let drawn := (List.range 32).map fun i => Config.randomByte (s.rng + i)
    let e : KeyEntry :=
      { handle := k.handle, gen := s.genOf k.handle, cls := k.cls, kind := k.kind, usages := k.usages, users := k.users,
        binding := k.binding, label := k.label, limit := k.limit, destroying := false, material := drawn, pub := [] }
    let held := { s.keys with holds := s.keys.holds ++ [⟨s.nextReq m, k.handle, k.label, decide (k.cls = .volatile)⟩] }
    (s.labelInUse k.label = true → exec c s = .next (s.told m tag 0x20 .existsAlready [0]).updateStat) ∧
    (s.labelInUse k.label = false → s.roomForKey k.cls = none → exec c s = .next (s.told m tag 0x20 .full [0]).updateStat) ∧
    (s.labelInUse k.label = false → s.roomForKey k.cls = some k.handle →
      (k.kind = .secret → k.cls = .volatile →
        exec c s = .next ({ s.told m tag 0x20 .ok [BitVec.ofNat 8 k.handle, e.gen] with
          rng := s.rng + 32
          keys := { s.keys with table := s.keys.table ++ [e] } } : State).updateStat) ∧
      (k.kind = .secret → k.cls ≠ .volatile → s.storeTakes →
        exec c s = .next (({ s.working m tag 0x20 .other with rng := s.rng + 32, keys := held } : State).writing
          ⟨.key, k.handle, e.payload, false, .keyNew (s.nextReq m) e none⟩).updateStat) ∧
      (k.kind ≠ .secret →
        exec c s = .next (({ s.working m tag 0x20 (.keyCreate k) with keys := held } : State).given
          (.mk' (.port m) .keygen .none (.request (s.nextReq m)))).updateStat))

/-- KEY_DESTROY of a key that is found, reachable and destroyable, and that no running job uses: the entry leaves the table, its
handle's generation rises, stacks rooted on it are emptied; a VOLATILE key's request is answered OK at once, a FACTORY or OWNER
key's waits for the removal of its record (R137, R138, R129, R145). -/
def Obligations.KeyDestroyFreesTheEntry : Prop :=
  ∀ (m : Master) (tag : Byte) (e : KeyEntry) (s : State),
    let payload := [BitVec.ofNat 8 e.handle, e.gen]
    let c := Instr.keyDestroy m tag payload
    s.takes m .keyDestroy payload → s.inbox = [] → 1 ≤ e.handle → e.handle ≤ 48 → s.keyFound e.handle e.gen = some e →
    mayMake m e.users = true → s.keyBarred m factoryOnly e.cls = false →
    (s.mayDestroy m e.cls = false → exec c s = .next (s.told m tag 0x21 .notPermitted [0]).updateStat) ∧
    (s.mayDestroy m e.cls = true → s.keyInUse e.handle e.gen = false → s.keys.destroys = [] →
      let clear := fun (st : List StackEntry) =>
        if st.any fun x => decide (x.rootHandle = e.handle) && decide (x.rootGen = e.gen) then [] else st
      let keys : KeyMgr := { s.keys with
        table := s.keys.table.filter fun x => !(decide (x.handle = e.handle) && decide (x.gen = e.gen))
        gens := s.keys.gens.set (e.handle - 1) (e.gen + 1)
        stackOf := ⟨clear s.keys.stackOf.app, clear s.keys.stackOf.radio, clear s.keys.stackOf.line⟩ }
      (e.cls = .volatile → exec c s = .next ({ s.told m tag 0x21 .ok [] with keys := keys } : State).updateStat) ∧
      (e.cls ≠ .volatile → s.storeTakes →
        exec c s = .next (({ s.working m tag 0x21 .other with
          keys := { keys with destroys := [⟨s.nextReq m, e.handle, e.gen, true, true, .ok⟩] } } : State).writing
            ⟨.key, e.handle, [], true, .keyRemoval e.handle e.gen⟩).updateStat))

/-- KEY_INFO describes a found key, KEY_FIND names the PRESENT entry with a label, to APP and the key's users; both are answered
NOT_FOUND otherwise, and change nothing (R140). The rescue column's class limit is R190's. -/
def Obligations.KeyInfoAndFindDescribeReachableKeys : Prop :=
  ∀ (m : Master) (tag : Byte) (s : State),
    (∀ (h : Nat) (g : Byte), 1 ≤ h → h ≤ 48 → s.takes m .keyInfo [BitVec.ofNat 8 h, g] →
      exec (.keyInfo m tag [BitVec.ofNat 8 h, g]) s = .next (
        match s.keyFound h g with
        | none => s.told m tag 0x22 .notFound [0]
        | some e =>
          if m = .app ∧ s.onRescue = true ∧ e.cls ≠ .factory then s.told m tag 0x22 .notPermitted [0]
          else if m = .app ∨ hasBit e.users m.idx = true then
            s.told m tag 0x22 .ok
              ([BitVec.ofNat 8 e.handle, e.gen, e.cls.code, e.kind.code, e.usages, e.users, e.binding.code, e.binding.indexByte] ++
                e.binding.valueBytes ++ le 2 (e.limit.getD 0) ++ [BitVec.ofNat 8 e.label.length] ++
                (e.label ++ List.replicate 16 0).take 16)
          else s.told m tag 0x22 .notFound [0])) ∧
    (∀ label : Bytes, s.takes m .keyFind label →
      exec (.keyFind m tag label) s = .next (
        match s.keys.table.find? fun e => decide (e.label = label) && !e.destroying with
        | none => s.told m tag 0x23 .notFound [0]
        | some e =>
          if m = .app ∧ s.onRescue = true ∧ e.cls ≠ .factory then s.told m tag 0x23 .notPermitted [0]
          else if m = .app ∨ hasBit e.users m.idx = true then
            s.told m tag 0x23 .ok [BitVec.ofNat 8 e.handle, e.gen, e.cls.code, e.kind.code]
          else s.told m tag 0x23 .notFound [0]))

/-- KEY_PUBLIC returns the public half of a found key: of a DEVICE key to any master, of another to its users with usage
export-public, else NOT_PERMITTED; a SECRET key is refused with BAD_REQUEST, a key not found with NOT_FOUND; no binding is examined,
no use charged, no job submitted (R141). APP on the rescue image is outside this statement (R190). -/
def Obligations.KeyPublicReturnsThePublicHalf : Prop :=
  ∀ (m : Master) (tag : Byte) (h : Nat) (g : Byte) (s : State), 1 ≤ h → h ≤ 48 → s.takes m .keyPublic [BitVec.ofNat 8 h, g] →
    (m = .app → s.onRescue = false) →
    exec (.keyPublic m tag [BitVec.ofNat 8 h, g]) s = .next (
      match s.keyFound h g with
      | none => s.told m tag 0x24 .notFound [0]
      | some e =>
        if e.kind = .secret then s.told m tag 0x24 .badRequest [0]
        else if e.cls = .device ∨ (hasBit e.users m.idx = true ∧ hasBit e.usages 5 = true) then s.told m tag 0x24 .ok e.pub
        else s.told m tag 0x24 .notPermitted [0])

/-- Requests that use a table key: KEY_SIGN, KEY_AGREE without keep, KEY_MAC, and DERIVE_PUSH on an empty stack. With the key found,
usable by the master with the usage, and its binding met, the request is WORKING with its job, which in an idle engine is running with a
copy of the key's material and the key in use (R57, R58, R142 to R144, R146); a use limit above 1 is charged by 1 at the take
(R139). A key not found is answered NOT_FOUND, one the master may not use so NOT_PERMITTED. -/
def Obligations.KeyUsesSubmitTheirJobs : Prop :=
  ∀ (m : Master) (tag : Byte) (h : Nat) (g : Byte) (x : Bytes) (s : State), 1 ≤ h → h ≤ 48 → s.inbox = [] →
    let r := s.nextReq m
    let b := BitVec.ofNat 8 h
    let uses := fun (n : RequestName) (payload : Bytes) (c : Instr) (u : Usage) (secret : Bool) (w : Work) (op : CryptoOp) =>
      s.takes m n payload →
      (s.keyFound h g = none → exec c s = .next (s.told m tag n.code .notFound [0]).updateStat) ∧
      ∀ e, s.keyFound h g = some e → (secret = true → e.kind = .secret) →
        (e.allows m u = false → exec c s = .next (s.told m tag n.code .notPermitted [0]).updateStat) ∧
        (e.allows m u = true → s.keyAt h = some e → s.bindingMet m e.binding = true →
          let job := Job.mk' (.port m) op (.table h g m u) (.request r)
          (e.limit = none → exec c s = .next ({ s.working m tag n.code w with
            engine := s.engine.given job e.material (some (h, g)) } : State).updateStat) ∧
          (∀ n', e.limit = some n' → 2 ≤ n' → s.engine.queue = [] → exec c s = .next ({ s.working m tag n.code w with
            engine := s.engine.given job e.material (some (h, g))
            keys := { s.keys with table := s.keys.table.map fun y =>
              if y.handle = h ∧ y.gen = g then { y with limit := some (n' - 1) } else y } } : State).updateStat))
    (x.length = 32 → uses .keySign ([b, g] ++ x) (.keySign m tag ([b, g] ++ x)) .sign false .sign (.sign (.digest x))) ∧
    (x.length = 64 →
      uses .keyAgree ([b, g] ++ x ++ [0, 0]) (.keyAgree m tag ([b, g] ++ x ++ [0, 0])) .agree false (.agree none) (.agree x)) ∧
    (x.length ≤ 1000 → uses .keyMac ([b, g] ++ x) (.keyMac m tag ([b, g] ++ x)) .mac true .mac (.mac x false)) ∧
    (1 ≤ x.length → x.length ≤ 64 → s.keys.stackOf.get m = [] →
      uses .derivePush ([b, g] ++ x) (.derivePush m tag ([b, g] ++ x)) .derive true (.pushDerive h g 0 x) (.derive x))

/-- DERIVE_POP removes the top entry and answers the new depth and the entry's label digest; an empty stack is refused with STATE;
no key is examined and no job submitted; with an empty stack a DERIVE_PUSH under the stack's top is refused with STATE (R147). -/
def Obligations.DerivePopRemovesTheTop : Prop :=
  ∀ (m : Master) (tag : Byte) (s : State),
    (∀ payload, s.takes m .derivePop payload → s.keys.stackOf.get m = [] →
      exec (.derivePop m tag payload) s = .next (s.told m tag 0x29 .state [0])) ∧
    (∀ payload below top, s.takes m .derivePop payload → s.keys.stackOf.get m = below ++ [top] →
      exec (.derivePop m tag payload) s = .next { s.told m tag 0x29 .ok (BitVec.ofNat 8 below.length :: top.labelDigest) with
        keys := { s.keys with stackOf := s.keys.stackOf.set m below } }) ∧
    (∀ g label, s.inbox = [] → s.keys.stackOf.get m = [] → 1 ≤ label.length → label.length ≤ 64 →
      s.takes m .derivePush (0 :: g :: label) →
      exec (.derivePush m tag (0 :: g :: label)) s = .next (s.told m tag 0x28 .state [0]).updateStat)

/-- DERIVE_STORE of the top secret as a VOLATILE key: with the root found, usable with usage derive-store, its binding met and without
a use limit, and room for the key, the new SECRET key is PRESENT at once with the top's secret as its material; the stack keeps
its entries. An empty stack is refused with STATE (R148, R136). -/
def Obligations.DeriveStoreKeepsTheTopSecret : Prop :=
  ∀ (m : Master) (tag : Byte) (k : NewKey) (payload : Bytes) (s : State), s.takes m .deriveStore payload → s.inbox = [] →
    byteAt 0 payload = 3 → k.cls = .volatile → k.kind = .secret → k.users = byteAt 1 payload → k.usages = byteAt 2 payload →
    Binding.ofCode (byteAt 3 payload) (byteAt 4 payload) (slice 5 32 payload) = some k.binding → k.label = payload.drop 37 →
    k.limit = none →
    let c := Instr.deriveStore m tag payload
    (s.keys.stackOf.get m = [] → exec c s = .next (s.told m tag 0x2A .state [0]).updateStat) ∧
    ∀ below top root, s.keys.stackOf.get m = below ++ [top] → mayMake m k.users = true →
      keyForm .secret k.usages k.users k.binding k.label = true → s.labelInUse k.label = false →
      s.roomForKey .volatile = some k.handle → s.keyFound top.rootHandle top.rootGen = some root →
      root.allows m .deriveStore = true → s.bindingMet m root.binding = true → root.limit = none →
      let e : KeyEntry :=
        { handle := k.handle, gen := s.genOf k.handle, cls := .volatile, kind := .secret, usages := k.usages, users := k.users,
          binding := k.binding, label := k.label, limit := none, destroying := false, material := top.secret, pub := [] }
      exec c s = .next ({ s.told m tag 0x2A .ok [BitVec.ofNat 8 k.handle, e.gen, BitVec.ofNat 8 (below.length + 1)] with
        keys := { s.keys with table := s.keys.table ++ [e] } } : State).updateStat

/-! ### Measurements -/

/-- EXTEND: a cell outside 1..7 is refused with BAD_REQUEST, a locked one with STATE, a log of 32 entries with FULL; otherwise a
DIGEST job of the cell's value followed by the digest is submitted and the request is WORKING, cell and log as they were (R152). -/
def Obligations.ExtendSubmitsTheDigest : Prop :=
  ∀ (m : Master) (tag cell : Byte) (digest : Bytes) (s : State), s.takes m .extend (cell :: digest) → s.inbox = [] →
    let x := s.measSet m
    exec (.extend m tag (cell :: digest)) s = .next (State.updateStat (
      if cell = 0 ∨ 7 < cell.toNat then s.told m tag 0x30 .badRequest [0]
      else if x.locks.getD cell.toNat false = true then s.told m tag 0x30 .state [0]
      else if 32 ≤ x.log.length then s.told m tag 0x30 .full [0]
      else (s.working m tag 0x30 (.extend cell.toNat digest)).given
        (.mk' (.port m) (.digest none (x.cells.getD cell.toNat zeroValue ++ digest) true) .none (.request (s.nextReq m)))))

/-- LOCK_CELL locks one cell of the requester's set, locked or not; READ_CELLS returns the named master's cells, lock flags, log length
and release count; READ_LOG returns up to 30 entries from a start; both to APP for any master and to the others for themselves, and
neither changes anything (R155 to R157). That a HELD master's set is read as it is stored is the model's choice (log entry 51). -/
def Obligations.CellsAreLockedAndRead : Prop :=
  ∀ (m : Master) (tag : Byte) (payload : Bytes) (s : State),
    (s.takes m .lockCell payload →
      exec (.lockCell m tag payload) s = .next (
        if 7 < (byteAt 0 payload).toNat then s.told m tag 0x31 .badRequest [0]
        else (s.modMeas m fun x => { x with locks := x.locks.set (byteAt 0 payload).toNat true }).told m tag 0x31 .ok [])) ∧
    (s.takes m .readCells payload →
      exec (.readCells m tag payload) s = .next (
        match Master.ofIdx (byteAt 0 payload).toNat with
        | none => s.told m tag 0x32 .badRequest [0]
        | some target =>
          let x := s.measSet target
          if m = .app ∨ m = target then
            s.told m tag 0x32 .ok (x.cells.flatten ++ [x.lockByte, BitVec.ofNat 8 x.log.length] ++ le 4 x.releases.toNat)
          else s.told m tag 0x32 .notPermitted [0])) ∧
    (s.takes m .readLog payload →
      exec (.readLog m tag payload) s = .next (
        match Master.ofIdx (byteAt 0 payload).toNat with
        | none => s.told m tag 0x33 .badRequest [0]
        | some target =>
          let x := s.measSet target
          let start := (byteAt 1 payload).toNat
          if m ≠ .app ∧ m ≠ target then s.told m tag 0x33 .notPermitted [0]
          else if x.log.length < start then s.told m tag 0x33 .badRequest [0]
          else
            s.told m tag 0x33 .ok ([byteAt 1 payload, BitVec.ofNat 8 x.log.length] ++ le 4 x.releases.toNat ++
              [BitVec.ofNat 8 (min 30 (x.log.length - start))] ++
              ((x.log.drop start).take 30).flatMap fun e => BitVec.ofNat 8 e.cell :: (e.digest ++ List.replicate 32 0).take 32)))

/-- ATTEST of masters the requester may name, with handle 1 found: the attestation sequence rises by 1, and the statement composed
with it is to be signed with the DEVICE ATTEST key, the request WORKING; naming no master is refused with BAD_REQUEST, a master it
may not name with NOT_PERMITTED, no handle 1 with STATE, the highest sequence with FULL (R158, R159, R161). That a set naming an
unknown master is BAD_REQUEST (log entry 23), and that the statement holds a HELD master's set as it is stored (log entry 51) and no
signer, level and build of a served slot that is BLANK (log entry 57), are the model's choices. -/
def Obligations.AttestSignsTheStatement : Prop :=
  ∀ (m : Master) (tag a b c d : Byte) (nonce : Bytes) (s : State), s.takes m .attest (a :: b :: c :: d :: nonce) → s.inbox = [] →
    let cmd := Instr.attest m tag (a :: b :: c :: d :: nonce)
    (a = 0 ∨ 8 ≤ a.toNat → exec cmd s = .next (s.told m tag 0x34 .badRequest [0]).updateStat) ∧
    (a ≠ 0 → a.toNat < 8 →
      (s.mayAttest m a = false → exec cmd s = .next (s.told m tag 0x34 .notPermitted [0]).updateStat) ∧
      (s.mayAttest m a = true →
        (s.keyFound 1 (s.genOf 1) = none → exec cmd s = .next (s.told m tag 0x34 .state [0]).updateStat) ∧
        ∀ e, s.keyFound 1 (s.genOf 1) = some e →
          (4294967295 ≤ s.meas.sequence → exec cmd s = .next (s.told m tag 0x34 .full [0]).updateStat) ∧
          (s.meas.sequence < 4294967295 →
            let t : State := { s with meas := { s.meas with sequence := s.meas.sequence + 1 } }
            let statement := t.statement a ⟨b, c, d⟩ nonce
            exec cmd s = .next ({ t.working m tag 0x34 (.attest statement) with
              engine := s.engine.given (.mk' (.port m) (.sign (.text statement)) .attest (.request (s.nextReq m))) e.material
                (some (1, e.gen)) } : State).updateStat)))

/-! ### Credentials -/

/-- CLAIM with no "claim" credential, a 1..64-byte owner secret and a free entry: the lowest free index is held, 16 bytes of salt are
drawn, and a DIGEST job of salt and secret is submitted (R169 step 2). CRED_VERIFY of a verifier by one of its readers, not locked out:
the entry's serial is noted and a DIGEST job of salt and secret is submitted; locked out, it is answered LOCKED_OUT with the
milliseconds remaining (R165). -/
def Obligations.ClaimAndVerifyDigestTheSecret : Prop :=
  ∀ (m : Master) (tag : Byte) (s : State), s.inbox = [] →
    (∀ (owner : Bytes) (i : Nat), s.takes .app .claim (0 :: owner) → s.creds.wiping = false → 1 ≤ owner.length →
      owner.length ≤ 64 → s.credNamed (ascii "claim") = none → s.freeCred = some i →
      let salt := (List.range 16).map fun k => Config.randomByte (s.rng + k)
      exec (.claim .app tag (0 :: owner)) s = .next (({ s.working .app tag 0x40 (.claimDigest i salt) with
        rng := s.rng + 16
        creds := { s.creds with holds := s.creds.holds ++ [⟨s.nextReq .app, i, ascii "owner"⟩] } } : State).given
          (.mk' (.port .app) (.digest none (salt ++ owner) true) .none (.request (s.nextReq .app)))).updateStat) ∧
    (∀ (name secret : Bytes),
      let payload := BitVec.ofNat 8 name.length :: (name ++ secret)
      let c := Instr.credVerify m tag payload
      s.takes m .credVerify payload → name.length < 256 →
      (secret.length < 1 ∨ 64 < secret.length → exec c s = .next (s.told m tag 0x41 .badRequest [0]).updateStat) ∧
      (1 ≤ secret.length → secret.length ≤ 64 →
        (s.credNamed name = none → exec c s = .next (s.told m tag 0x41 .notFound [0]).updateStat) ∧
        ∀ e, s.credNamed name = some e →
          (∀ v, e.value = .secret v → exec c s = .next (s.told m tag 0x41 .badRequest [0]).updateStat) ∧
          ∀ salt digest, e.value = .verifier salt digest →
            (hasBit e.readers m.idx = false → exec c s = .next (s.told m tag 0x41 .notPermitted [0]).updateStat) ∧
            (hasBit e.readers m.idx = true →
              (∀ until_, e.lockout = some until_ → s.clock / 1000 < until_ →
                exec c s = .next (s.told m tag 0x41 .lockedOut (0 :: le 4 (until_ - s.clock / 1000))).updateStat) ∧
              ((∀ until_, e.lockout = some until_ → until_ ≤ s.clock / 1000) →
                exec c s = .next ((s.working m tag 0x41 (.verify name e.serial)).given
                  (.mk' (.port m) (.digest none (salt ++ secret) true) .none (.request (s.nextReq m)))).updateStat))))

/-- CRED_PUT of a new name by a master allowed to, with a free entry: a SECRET's record is written at once, for a verifier 16 bytes of
salt are drawn and salt and secret are digested first, the index and name held meanwhile (R170, R171). CRED_DELETE of an entry but
"owner" removes it at once, marks the CRED-PUTs that are replacing it, and waits for its removal record (R171, R173). A CRED_PUT of a
new name replaces no entry, so no such mark stops it. APP on the rescue image names no OWNER credential (R190). -/
def Obligations.CredPutAndDeleteWriteTheRecord : Prop :=
  ∀ (m : Master) (tag : Byte) (s : State), s.inbox = [] →
    (∀ (cls : CredClass) (secret : Bool) (readers : Byte) (grantRequired : Bool) (name value : Bytes) (i : Nat),
      let payload := [cls.code, if secret then 1 else 0, readers, if grantRequired then 1 else 0] ++
        (BitVec.ofNat 8 name.length :: (name ++ value))
      let c := Instr.credPut m tag payload
      let may := s.credBarred m cls = false ∧ s.credAllowed m cls = true
      s.takes m .credPut payload → name.length < 256 →
      (¬ may → exec c s = .next (s.told m tag 0x42 .notPermitted [0]).updateStat) ∧
      (may → credForm name cls secret readers grantRequired value = false →
        exec c s = .next (s.told m tag 0x42 .badRequest [0]).updateStat) ∧
      (may → credForm name cls secret readers grantRequired value = true →
        s.credNamed name = none → (∀ h ∈ s.creds.holds, h.name ≠ name) → s.freeCred = some i →
        let r := s.nextReq m
        let e := fun (v : CredValue) => CredEntry.mk i name cls readers grantRequired v 1 0 none
        let held := { s.creds with holds := s.creds.holds ++ [⟨r, i, name⟩] }
        let salt := (List.range 16).map fun k => Config.randomByte (s.rng + k)
        (secret = true → s.storeTakes →
          exec c s = .next (({ s.working m tag 0x42 .other with creds := held } : State).writing
            ⟨.cred, i, (e (.secret value)).payload, false, .credPut r (e (.secret value)) true⟩).updateStat) ∧
        (secret = false →
          exec c s = .next (({ s.working m tag 0x42 (.credDigest (e (.secret [])) salt true) with
            rng := s.rng + 16, creds := held } : State).given
              (.mk' (.port m) (.digest none (salt ++ value) true) .none (.request r))).updateStat))) ∧
    (∀ (name : Bytes), s.takes m .credDelete name →
      let c := Instr.credDelete m tag name
      (s.credNamed name = none → exec c s = .next (s.told m tag 0x44 .notFound [0]).updateStat) ∧
      ∀ e, s.credNamed name = some e →
        (s.credBarred m e.cls = true → exec c s = .next (s.told m tag 0x44 .notPermitted [0]).updateStat) ∧
        (s.credBarred m e.cls = false → name = ascii "owner" → exec c s = .next (s.told m tag 0x44 .state [0]).updateStat) ∧
        (s.credBarred m e.cls = false → name ≠ ascii "owner" → s.credAllowed m e.cls = false →
          exec c s = .next (s.told m tag 0x44 .notPermitted [0]).updateStat) ∧
        (s.credBarred m e.cls = false → name ≠ ascii "owner" → s.credAllowed m e.cls = true → s.storeTakes →
          exec c s = .next (({ s.working m tag 0x44 .other with creds := { s.creds with
            table := s.creds.table.filter fun x => !decide (x.index = e.index)
            deleted := s.creds.deleted ++ (s.working m tag 0x44 .other).replacing e.index } } : State).writing
              ⟨.cred, e.index, [], true, .credRemoval e.index (some (s.nextReq m))⟩).updateStat))

/-- CRED_GET's tests in order and its answer, the value and the serial; it submits no job and changes nothing (R172). -/
def Obligations.CredGetReturnsASecret : Prop :=
  ∀ (m : Master) (tag : Byte) (name : Bytes) (s : State), s.takes m .credGet name →
    exec (.credGet m tag name) s = .next (
      match s.creds.table.find? fun e => decide (e.name = name) with
      | none => s.told m tag 0x43 .notFound [0]
      | some e =>
        match e.value with
        | .verifier _ _ => s.told m tag 0x43 .badRequest [0]
        | .secret v =>
          if hasBit e.readers m.idx = false then s.told m tag 0x43 .notPermitted [0]
          else if ¬ ((s.sup m).phase = .running ∧
              ((s.sup m).served = .slot .s0 ∧ (s.slot ⟨m, .s0⟩).state = .current ∨
               (s.sup m).served = .slot .s1 ∧ (s.slot ⟨m, .s1⟩).state = .current)) then
            s.told m tag 0x43 .notPermitted [0]
          else if e.grantRequired = true ∧ s.creds.grants.get m = none then s.told m tag 0x43 .notPermitted [0]
          else s.told m tag 0x43 .ok (le 4 e.serial ++ v))

/-- CRED_LIST returns, in order of entry index, the entries whose readers include the requester, every entry to APP, with index, class,
kind, serial and name, and changes nothing; GRANT_CLOSE closes the requester's grant, open or not, and is answered OK; neither submits a
job (R174). -/
def Obligations.CredListAndGrantCloseAnswerAtOnce : Prop :=
  ∀ (m : Master) (tag : Byte) (payload : Bytes) (s : State),
    (s.takes m .credList payload →
      let shown := (List.range 32).filterMap fun i =>
        (s.creds.table.find? fun e => decide (e.index = i)).filter fun e => decide (m = .app) || hasBit e.readers m.idx
      exec (.credList m tag payload) s = .next (s.told m tag 0x45 .ok (BitVec.ofNat 8 shown.length :: shown.flatMap fun e =>
        [BitVec.ofNat 8 e.index, e.cls.code, e.value.kindCode] ++ le 4 e.serial ++ [BitVec.ofNat 8 e.name.length] ++ e.name))) ∧
    (s.takes m .grantClose payload →
      exec (.grantClose m tag payload) s = .next { s.told m tag 0x46 .ok [] with
        creds := { s.creds with grants := s.creds.grants.set m none } })

/-! ### Fuses -/

/-- FUSE_IDENTITY of a serial other than 0 on a BLANK identity row, FUSE_SIGNER on a BLANK signer row, and CLOSE_MANUFACTURE when its
conditions hold submit their fuse job: it joins the job list behind a job in progress or the read at part reset, else it is in progress
at the first fuse not yet blown (R43, R44, R51, R53, R54). A row not BLANK is refused with STATE, serial 0 and a row above 3 with
BAD_REQUEST, a close whose conditions fail with STATE, one during a commit with CONFLICT. The seed is not 0, and is the first 32
drawn bytes when they are not all zero. -/
def Obligations.ManufactureRequestsSubmitFuseJobs : Prop :=
  ∀ (tag : Byte) (s : State), s.inbox = [] →
    let r := s.nextReq .app
    let submits := fun (c : Instr) (t : State) (j : FuseJob) =>
      (s.bank.active.isSome = true ∨ s.bank.reading = true →
        exec c s = .next ({ t with bank := { s.bank with jobs := s.bank.jobs ++ [(j, .request r)] } } : State).updateStat) ∧
      (s.bank.active = none → s.bank.reading = false → s.bank.jobs = [] →
        let todo := (j.fuses s.bank.view).dropWhile s.fuses.blown
        todo ≠ [] →
        exec c s = .next ({ t with bank := { s.bank with active := some ⟨j, .request r, todo, 0, false, false⟩ } } : State).updateStat)
    (∀ serial : Bytes, s.takes .app .fuseIdentity serial →
      let c := Instr.fuseIdentity .app tag serial
      let first := rowBits ((List.range 32).map fun i => Config.randomByte (s.rng + i))
      (s.bank.view.identity ≠ .blank → exec c s = .next (s.told .app tag 0x50 .state [0]).updateStat) ∧
      (s.bank.view.identity = .blank → leNat serial = 0 → exec c s = .next (s.told .app tag 0x50 .badRequest [0]).updateStat) ∧
      (s.bank.view.identity = .blank → leNat serial ≠ 0 → ∃ (n : Nat) (seed : BitVec 256), seed ≠ 0 ∧ s.rng + 32 ≤ n ∧
        (first ≠ 0 → seed = first ∧ n = s.rng + 32) ∧
        submits c { s.working .app tag 0x50 .other with rng := n } (.identity (BitVec.ofNat 64 (leNat serial)) seed))) ∧
    (∀ (k : Byte) (digest : Bytes), s.takes .app .fuseSigner (k :: digest) →
      let c := Instr.fuseSigner .app tag (k :: digest)
      (3 < k.toNat → exec c s = .next (s.told .app tag 0x51 .badRequest [0]).updateStat) ∧
      (k.toNat ≤ 3 → s.bank.view.rowBlank k.toNat = false → exec c s = .next (s.told .app tag 0x51 .state [0]).updateStat) ∧
      (k.toNat ≤ 3 → s.bank.view.rowBlank k.toNat = true →
        submits c (s.working .app tag 0x51 .other) (.signer k.toNat (rowBits digest)))) ∧
    (∀ payload : Bytes, s.takes .app .closeManufacture payload →
      let c := Instr.closeManufacture .app tag payload
      (s.commitInProgress = true → exec c s = .next (s.told .app tag 0x52 .conflict [0]).updateStat) ∧
      (s.commitInProgress = false → s.closeReady = false → exec c s = .next (s.told .app tag 0x52 .state [0]).updateStat) ∧
      (s.commitInProgress = false → s.closeReady = true → submits c (s.working .app tag 0x52 .other) .close))

/-- FUSE_ATTEMPT_END: a blown fuse is blown in the bank and the job goes to its next fuse; an intact one is attempted again up to three
times in all; a REVOKE job whose fuse has failed goes on to its next fuse, and will end FAULT (R44, R46). FUSE_BANK_READ_END: the fuse
view is one read of every fuse, and the lifecycle is MANUFACTURE, or UNOWNED once the closed fuse is blown, with OWNER raised on every
port when this read is the first to show it so (R38, R42, R164; log entry 10). With the identity row PROGRAMMED the store is MOUNTING,
and the record-protect key is being derived from the seed (R33, R49); without it the store stays as it is (R33), here with the masters'
hold deadlines ahead. -/
def Obligations.FuseAttemptsAndTheReadAtReset : Prop :=
  ∀ s : State, s.inbox = [] →
    (∀ (a : ActiveFuse) (f g : FuseId) (rest : List FuseId), s.bank.active = some a →
      (a.todo = f :: g :: rest → (s.fuses.blow f).blown g = false →
        exec (.fuseAttemptEnd true) s = .next ({ s with
          fuses := s.fuses.blow f
          bank := { s.bank with active := some { a with todo := g :: rest, attempts := 0 } } } : State).updateStat) ∧
      (a.todo = f :: rest → a.attempts < 2 →
        exec (.fuseAttemptEnd false) s = .next ({ s with
          bank := { s.bank with active := some { a with attempts := a.attempts + 1 } } } : State).updateStat) ∧
      (∀ set, a.job = .revoke set → a.todo = f :: g :: rest → a.attempts = 2 → s.fuses.blown g = false →
        exec (.fuseAttemptEnd false) s = .next ({ s with
          bank := { s.bank with active := some { a with todo := g :: rest, attempts := 0, failed := true } } } : State).updateStat)) ∧
    (s.bank.reading = true →
      let read : State := { s with
        bank := { s.bank with reading := false, view := s.fuses.view, seen := s.bank.seen || s.fuses.closed }
        creds := { s.creds with lifecycle := if s.fuses.closed then .unowned else .manufacture } }
      let told := if s.fuses.closed = true ∧ s.bank.seen = false then
          ((read.raise .app flagOwner).raise .radio flagOwner).raise .line flagOwner
        else read
      (s.fuses.written = false →
        (∀ m, (s.sup m).phase = .held ∧ ∃ d, (s.sup m).holdDeadline = some d ∧ s.clock / 1000 < d) →
        exec .fuseBankReadEnd s = .next told.updateStat) ∧
      (s.fuses.written = true →
        exec .fuseBankReadEnd s = .next ({ told with
          store := { s.store with cond := .mounting, mount := some (.start none) }
          engine := s.engine.given (.mk' .store (.derive (ascii "LJ330 RECORD" ++ [0])) .seed .recordKey) s.fuses.seedBytes
            none } : State).updateStat))

/-! ### Deadlines -/

/-- GATHER_WINDOW_CLOSE of a GATHERING batch, nothing else at the array: the batch is RUNNING (R7, R8); that the command lets time pass
up to the window's close is the model's choice (log entry 2). FLASH_ARBITRATION starts such a batch whose window has passed, and a
program that waits alone (R12). -/
def Obligations.BatchesAndWaitingProgramsStart : Prop :=
  ∀ s : State, s.inbox = [] → s.ctl.reads = [] → s.ctl.prog = none →
    (∀ b, s.ctl.batch = some b → b.state = .gathering → s.ctl.wait = [] →
      let run := { s.ctl with batch := some { b with state := .running, suspends := 0, active := 0 } }
      exec .gatherWindowClose s = .next ({ s with clock := max s.clock b.closes, ctl := run } : State).updateStat ∧
      (b.closes ≤ s.clock → exec .flashArbitration s = .next ({ s with ctl := run } : State).updateStat)) ∧
    (∀ p, s.ctl.batch = none → s.ctl.wait = [.program p] → s.ctl.outstanding = [] →
      exec .flashArbitration s = .next ({ s with ctl := { s.ctl with wait := [], prog := some ⟨p, 0, false⟩ } } : State).updateStat)

/-- BOOT_CHOICE once its waits have ended, and HOLD_DEADLINE at its deadline: with nothing to try and no CURRENT slot, APP is released
on the rescue image, cell 0 holding the rescue digest, locked, the release counted, the window OPEN and the contact deadline running;
RADIO and LINE stay HELD, in recovery, with fault reason NO_IMAGE, FAULT on their port and PEER on APP's. With an eligible, checked
CURRENT slot the digest of its manifest is submitted for cell 0 (R94, R96, R98, R109). That HOLD_DEADLINE lets time pass up to the
deadline is the model's choice (log entry 2). -/
def Obligations.BootChoiceServesWhatItFinds : Prop :=
  ∀ (m : Master) (c : Instr) (s u : State), s.inbox = [] →
    (c = .bootChoice m ∧ u = s ∨ ∃ d, (s.sup m).holdDeadline = some d ∧ c = .holdDeadline m ∧ u = s.untilMs d) →
    u.choiceReady m = true → (u.sup m).phase = .held → (u.port m).boot = none →
    (∀ op ∈ u.ctl.reads, op.by_ ≠ .boot m) → (∀ op, Waiting.read op ∈ u.ctl.wait → op.by_ ≠ .boot m) →
    (∀ n, (u.slot ⟨m, n⟩).state ≠ .trial ∧ ((u.slot ⟨m, n⟩).state = .ready → (u.slot ⟨m, n⟩).tryMark = false)) →
    (m = .app → u.currentSlot m = none →
      exec c s = .next ((u.modSup m fun x =>
        { x with phase := .booting, hold := none, holdDeadline := none, window := some .open, served := .rescue,
                 servedState := some .rescue, contact := some (u.clock / 1000 + u.settings.contact.app), work := .none,
                 skip := none }).modMeas m
          fun x => { x with cells := x.cells.set 0 rescueDigest, locks := x.locks.set 0 true,
                            releases := x.releases + 1 }).updateStat) ∧
    (m ≠ .app → u.currentSlot m = none →
      exec c s = .next (((u.modSup m fun x =>
        { x with hold := some .recovery, holdDeadline := none, window := none, served := .none, servedState := none, work := .none,
                 skip := none, fault := .noImage }).raise m flagFault).raise .app flagPeer).updateStat) ∧
    (∀ i, u.currentSlot m = some i → u.ineligible i = none → (u.slot i).checked = true →
      exec c s = .next (({ u with uid := u.uid + 1 }.modSup m fun x => { x with work := .cell0 u.uid i.slot .current }).given
        (.mk' .supervision (.digest none (u.slot i).mf true) .none (.cell0 m u.uid))).updateStat)

/-- CONTACT_EXPIRY of a BOOTING master that owns no session: a master reset, with CONTACT_TIMEOUT when the served state is not CURRENT;
a CURRENT boot below 15 failures submits its raised count, with the boot-failure limit taken at the expiry (R102, R103, R92).
TRIAL_DEADLINE below the error limit counts an error and moves the window (R105). That each command lets time pass up to its deadline,
and that one which comes later finds the deadline passed, is the model's choice (log entries 2 and 26). A master that owns a session, a
count already at 15 and a trial at its error limit are not in this statement. -/
def Obligations.ContactAndTrialDeadlinesCountFailures : Prop :=
  ∀ (m : Master) (s : State), s.inbox = [] →
    (∀ d, (s.sup m).contact = some d → (s.sup m).phase ≠ .held → s.storeTakes →
      (∀ i : SlotId, ¬ ((s.slot i).owner = some m ∧ (s.slot i).state.staging = true)) →
      (s.sup m).servedState = some .current → (s.sup m).bootFailures < 15 →
      let u := s.untilMs d
      ∃ t, exec (.contactExpiry m) s = .next t ∧ (t.sup m).phase = .held ∧ (t.sup m).hold = some .restarting ∧
        (t.sup m).holdDeadline = some (u.clock / 1000 + 50) ∧ (t.sup m).contact = none ∧
        (t.sup m).bootFailures = (s.sup m).bootFailures ∧ (t.sup m).fault = (s.sup m).fault ∧
        t.store = (s.writing ⟨.bootfail, m.idx, bootFailPayload ((s.sup m).bootFailures + 1), true,
          .bootFail m ((s.sup m).bootFailures + 1) s.settings.bootFailureLimit⟩).store ∧
        t.image.slots = s.image.slots ∧ t.keys.table = s.keys.table ∧ t.creds.table = s.creds.table ∧ t.bank = s.bank ∧
        (∀ k, k ≠ m → t.sup k = s.sup k ∧ t.port k = s.port k ∧ t.measSet k = s.measSet k)) ∧
    (∀ d, (s.sup m).contact = some d → (s.sup m).phase ≠ .held →
      (∀ i : SlotId, ¬ ((s.slot i).owner = some m ∧ (s.slot i).state.staging = true)) →
      (s.sup m).servedState ≠ some .current →
      let u := s.untilMs d
      ∃ t, exec (.contactExpiry m) s = .next t ∧ (t.sup m).phase = .held ∧ (t.sup m).hold = some .restarting ∧
        (t.sup m).holdDeadline = some (u.clock / 1000 + 50) ∧ (t.sup m).contact = none ∧
        (t.sup m).bootFailures = (s.sup m).bootFailures ∧ (t.sup m).fault = .contactTimeout ∧
        (t.port m).flags = flagFault ∧ t.store = s.store ∧ t.image.slots = s.image.slots ∧
        t.keys.table = s.keys.table ∧ t.creds.table = s.creds.table ∧ t.bank = s.bank ∧
        (∀ k, k ≠ m → t.sup k = s.sup k ∧ t.measSet k = s.measSet k)) ∧
    (∀ w, (s.sup m).trial = some w → w.errors + 1 < w.limit →
      exec (.trialDeadline m) s = .next ((s.untilMs w.deadline).modSup m fun x =>
        { x with trial := some { w with
          errors := w.errors + 1, last := w.deadline, deadline := w.deadline + w.max } }).updateStat)

/-- LOCKOUT_EXPIRY ends the lockout (R167); GRANT_EXPIRY closes the grant and raises OWNER (R168); a press of the owner button makes a
RELEASED detector HOLDING for 10,000 ms, a release makes it RELEASED (R175); STAT_BLINK_TOGGLE turns STAT over at the end of a period of
250 ms during a wipe, of 1,000 ms during a trial or commit (R114). Each moves the clock to its deadline (the model's choice, log
entry 2). -/
def Obligations.OwnerDeadlinesAndButtonAndStat : Prop :=
  ∀ s : State,
    (∀ (k d : Nat), (s.credAt k).bind (·.lockout) = some d →
      exec (.lockoutExpiry k) s = .next { s.untilMs d with creds := { s.creds with
        table := s.creds.table.map fun e => if e.index = k then { e with lockout := none } else e } }) ∧
    (∀ (m : Master) (d : Nat), s.creds.grants.get m = some d →
      exec (.grantExpiry m) s = .next (({ s.untilMs d with creds := { s.creds with
        grants := s.creds.grants.set m none } } : State).raise m flagOwner)) ∧
    exec .ownerButtonPress s = .next { s with creds :=
      if s.creds.button = .released then
        { s.creds with pressed := true, button := .holding, buttonDeadline := some (s.clock / 1000 + 10000) }
      else { s.creds with pressed := true } } ∧
    exec .ownerButtonRelease s = .next { s with creds :=
      if s.creds.button = .holding ∨ s.creds.button = .spent then
        { s.creds with pressed := false, button := .released, buttonDeadline := none }
      else { s.creds with pressed := false } } ∧
    (s.stat.priority = 2 → exec .statBlinkToggle s =
      .next { s.until (s.stat.since + 250000) with stat := ⟨2, !s.stat.on, s.stat.since + 250000⟩ }) ∧
    (s.stat.priority = 3 → exec .statBlinkToggle s =
      .next { s.until (s.stat.since + 1000000) with stat := ⟨3, !s.stat.on, s.stat.since + 1000000⟩ })

/-- A wipe starts by writing its journal: RELINQUISH with the requester's grant open and no wipe starting or in progress, its request
WORKING; and the owner button held for its time, in OWNED. Without the grant RELINQUISH is refused with NOT_PERMITTED, during a wipe
with CONFLICT; out of OWNED the held button only becomes SPENT (R175, R176). That the button's expiry lets time pass up to its deadline
(log entry 2), and the byte that names the cause in the journal's payload (log entry 7), are the model's choices. -/
def Obligations.WipesStartWithTheirJournal : Prop :=
  ∀ (s : State), s.inbox = [] →
    (∀ (tag : Byte) (payload : Bytes), s.takes .app .relinquish payload →
      let c := Instr.relinquish .app tag payload
      (s.creds.grants.get .app = none → exec c s = .next (s.told .app tag 0x47 .notPermitted [0]).updateStat) ∧
      (s.creds.grants.get .app ≠ none → s.creds.wipe ≠ .none →
        exec c s = .next (s.told .app tag 0x47 .conflict [0]).updateStat) ∧
      (s.creds.grants.get .app ≠ none → s.creds.wipe = .none → s.storeTakes →
        exec c s = .next (({ s.working .app tag 0x47 .other with
          creds := { s.creds with wipe := .starting, wipeCause := .request } } : State).writing
            ⟨.journalWipe, 0, [0], true, .wipeOpen (some (s.nextReq .app))⟩).updateStat)) ∧
    (∀ d, s.creds.buttonDeadline = some d →
      let u := s.untilMs d
      let spent := { s.creds with button := .spent, buttonDeadline := none }
      (s.creds.lifecycle = .owned → s.creds.wipe = .none → s.creds.wiping = false → s.storeTakes →
        exec .ownerButtonHoldExpiry s = .next (({ u with creds := { spent with wipe := .starting, wipeCause := .button } } : State).writing
          ⟨.journalWipe, 0, [1], true, .wipeOpen none⟩).updateStat) ∧
      (s.creds.lifecycle ≠ .owned ∨ s.creds.wipe ≠ .none ∨ s.creds.wiping = true →
        exec .ownerButtonHoldExpiry s = .next ({ u with creds := spent } : State).updateStat))

/-! ### Ends of operations -/

/-- PROGRAM_END of the last page of a STAGE_DATA, good, before its time limit: the array holds the program's bytes, the bytes received
rise by the request's, and it is answered OK with the new count (R3, R75). PROGRAM_TIME_LIMIT of such a page: active time reaches
2 ms, the program is a FAULT, the slot becomes FAILED(FLASH) at once with its write submitted, and the request is answered
FLASH_FAULT (R3, R76). PROGRAM_END of a program of the Record Store's begun write, good: after the record header the payload is
programmed page by page, then the tag, then the state VALID (R24 steps 4 to 7); after VALID the record is current, its bytes are VALID
in its sector, the write is DURABLE, so the settings it carries take effect and its request is answered OK (R24, R112), and the record
it replaced is programmed SUPERSEDED; after that, whatever its result, the replaced record's bytes are VALID no more and the write
has ended, and where a reclaim has waited for that program alone, the erase of its victim is requested (R24, R29, R30). A fault in
steps 4 to 7 has the record programmed SUPERSEDED (R27). That PROGRAM_TIME_LIMIT lets time pass up to the limit is the model's choice
(log entry 2); so are the place of a record's state byte, record + 1, and the values recValid and recSuperseded (log entry 6), and
that the bits a program leaves are its command's operand, stuck (log entry 9). Pages of a STAGE_DATA that are not its last are not
in this statement. -/
def Obligations.ProgramEndsServeStageData : Prop :=
  ∀ (s : State) (p : ActiveProg) (stuck : Bytes), s.inbox = [] → s.ctl.prog = some p → p.suspended = false →
    s.ctl.reads = [] → s.ctl.wait = [] → s.ctl.batch = none →
    let answered := fun (t : State) (r : Req) (st : Status) (payload : Bytes) => t.modPort r.port fun x =>
      { x with req := .answered, answer := some ⟨st, x.tag, payload⟩, flags := x.flags ||| flagAnswer, work := .none }
    let good := p.active < 2000 ∧ programGood s.flash p.op.addr p.op.data stuck = true
    let t : State := { s with flash := memProgram s.flash p.op.addr p.op.data stuck, ctl := { s.ctl with prog := none } }
    (∀ pg : StagePage, p.op.requester = .image → s.image.pages = [pg] →
      pg.last = true → (s.slot pg.sid).state = .loading → (s.slot pg.sid).owner = some pg.req.port →
      (s.port pg.req.port).req = .working → (s.port pg.req.port).no = pg.req.no → (s.port pg.req.port).work = .stageData pg.sid →
      let e := s.slot pg.sid
      let t : State := { t with image := { s.image with pages := [] } }
      (good → exec (.programEnd stuck) s = .next (answered (t.putSlot pg.sid { e with received := e.received + pg.total }) pg.req .ok
        (le 4 (e.received + pg.total))).updateStat) ∧
      (p.active ≤ 2000 → s.storeTakes →
        let failed := { e with
          state := .failed, reason := some .flash, tryMark := false, trialBoots := 0, received := 0, owner := none }
        exec (.programTimeLimit stuck) s = .next (answered
          ((({ t with clock := s.clock + (2000 - p.active) } : State).setSlot pg.sid failed).writing
            ⟨.slot, pg.sid.id, failed.payload, true, .slotTaken pg.sid false⟩) pg.req .flashFault [0]).updateStat)) ∧
    (∀ (a : ActiveWrite) (q : StoreProg), p.op.requester = .store → s.store.cur = some a → s.store.progs = [q] → q.for_ = .write →
      s.store.mount = none → s.ctl.outstanding = [] →
      let record := storeAddr a.sector a.offset
      let goes := fun (c : Instr) (t : State) (a' : ActiveWrite) (addr : Nat) (data : Bytes) =>
        s.ctl.touchesRetired ⟨addr, data.length⟩ = false →
        exec c s = .next ({ t with
          store := { t.store with cur := some a', progs := [⟨addr, data, .write⟩] }
          ctl := { s.ctl with prog := some ⟨⟨.store, addr, data⟩, 0, false⟩ } } : State).updateStat
      let pages := if a.step = .header then pagesOf 8 (record + 16) (padded a.write.payload) else a.pages
      (good → a.step = .header ∨ a.step = .payload →
        (∀ page rest, pages = page :: rest →
          goes (.programEnd stuck) t { a with step := .payload, pages := rest } page.1 page.2) ∧
        (pages = [] →
          goes (.programEnd stuck) t { a with step := .tagProgram, pages := [] }
            (record + 16 + roundUnits a.write.payload.length) a.tag)) ∧
      (good → a.step = .tagProgram → goes (.programEnd stuck) t { a with step := .valid } (record + 1) [recValid]) ∧
      (∀ (owner : Bool) (v : Settings) (r : Req) (o : MirrorEntry), good → a.step = .valid → a.write.for_ = .settings owner v r →
        (owner = true → s.creds.lifecycle = .owned) → s.store.retry = [] →
        (s.port r.port).req = .working → (s.port r.port).no = r.no → s.mirrorAt a.write.type a.write.id = some o →
        let size := recordSize a.write.payload.length
        let e : MirrorEntry :=
          { type := a.write.type, id := a.write.id, sector := a.sector, offset := a.offset, seq := a.seq, size := size,
            hasPayload := !a.write.payload.isEmpty, ownerClass := ownerClass a.write.type a.write.payload }
        let u : State := { t with
          store := { s.store with
            mirror := (s.store.mirror.filter fun x => !(decide (x.type = a.write.type) && decide (x.id = a.write.id))) ++ [e]
            sectors := s.store.sectors.modify a.sector fun x => { x with valid := x.valid + size } }
          creds := if owner then { s.creds with ownerSettings := some v } else { s.creds with factorySettings := some v } }
        goes (.programEnd stuck) (answered u r .ok []) { a with step := .supersede, old := some o } (storeAddr o.sector o.offset + 1)
          [recSuperseded]) ∧
      (∀ (owner : Bool) (v : Settings) (r : Req) (o : MirrorEntry), a.step = .supersede → a.old = some o →
        a.write.for_ = .settings owner v r → a.write.type ≠ .slot → s.store.writes = [] → s.store.retry = [] →
        s.creds.wipe ≠ .removal →
        let u : State := { t with store := { s.store with
          cur := none
          progs := []
          sectors := s.store.sectors.modify o.sector fun x => { x with valid := x.valid - o.size } } }
        ∀ x, s.store.reclaim = some x →
          (x.step ≠ .settling → exec (.programEnd stuck) s = .next u.updateStat) ∧
          (x.step = .settling → storeSector x.victim ∉ s.ctl.retired →
            exec (.programEnd stuck) s = .next ({ u with
              store := { u.store with reclaim := some { x with step := .erasing } }
              ctl := { t.ctl with
                outstanding := [⟨storeSector x.victim, [.reclaim], 0⟩]
                batch := some ⟨.gathering, s.clock + 200, [storeSector x.victim], [], 0, 0⟩ } } : State).updateStat)) ∧
      (a.step = .header ∨ a.step = .payload ∨ a.step = .tagProgram ∨ a.step = .valid → p.active ≤ 2000 →
        goes (.programTimeLimit stuck) { t with clock := s.clock + (2000 - p.active) } { a with step := .abandon } (record + 1)
          [recSuperseded]))

/-- SECTOR_ERASE_END and ERASE_TIME_LIMIT: the array holds the erase's bytes; the member is ERASED when it reads erased everywhere and
its active time is below the limit of 2 s, 400 ms for a store sector, otherwise failed, as it is at the limit; the next member begins
with active time 0 (R9). The last member of a batch of one ends the batch: ERASED, it is reported, here to a request of the Image
Manager with more sectors to come; at its first failure it stays outstanding and heads the next-batch list; at its second it is
retired, reported RETIRED, and the RETIRED record is submitted (R14, R15, R31). A new batch of up to 16 gathers from the next-batch
list, if that is not empty (R14). That ERASE_TIME_LIMIT lets time pass up to the limit is the model's choice (log entry 2). -/
def Obligations.SectorErasesAreDecided : Prop :=
  ∀ (s : State) (b : Batch) (x : Sector) (rest : List Sector) (kept : List (Nat × Byte)), s.inbox = [] →
    s.ctl.batch = some b → b.state = .running → b.members = x :: rest →
    let limit := match x.area with
      | .image => 2000000
      | .store => 400000
    let flash := memErase x.base x.size (keptAt kept) s.flash
    let erased := decide (b.active < limit) && sectorErased flash x
    let timed : State := { s with clock := s.clock + (limit - b.active) }
    (∀ y more, rest = y :: more →
      let decided := fun (ok : Bool) => { s.ctl with
        batch := some { b with members := y :: more, decided := b.decided ++ [(x, ok)], active := 0 } }
      exec (.sectorEraseEnd kept) s = .next ({ s with flash := flash, ctl := decided erased } : State).updateStat ∧
      (s.ctl.prog = none → exec (.eraseTimeLimit kept) s = .next ({ timed with
        flash := flash, ctl := decided false } : State).updateStat)) ∧
    (∀ (k failures : Nat) (task : EraseTask), rest = [] → b.decided = [] → s.ctl.reads = [] → s.ctl.wait = [] → s.ctl.prog = none →
      s.store.mount = none → s.ctl.outstanding = [⟨x, [.image k], failures⟩] → s.image.tasks = [task] → task.task = k →
      task.remaining.erase x ≠ [] →
      let ended := fun (t : State) (next : List Sector) (o : List Outstanding) => { t with
        flash := flash
        ctl := { s.ctl with
          outstanding := o
          batch := if next = [] then none else some ⟨.gathering, t.clock + 200, next.take 16, [], 0, 0⟩
          next := next.drop 16 } }
      let heard := fun (t : State) (ok : Bool) => { t with image := { s.image with
        tasks := [{ task with remaining := task.remaining.erase x, anyRetired := task.anyRetired || !ok }] } }
      let retired := fun (t : State) =>
        (({ t with
          ctl := { t.ctl with retired := s.ctl.retired ++ [x] }
          store := { s.store with retiredList := s.store.retiredList ++ [x] } } : State).writing
          ⟨.retired, 0, retiredPayload (s.store.retiredList ++ [x]), true, .retiredList⟩)
      (erased = true → exec (.sectorEraseEnd kept) s = .next (heard (ended s s.ctl.next []) true).updateStat) ∧
      (failures = 0 →
        let again := fun (t : State) => ended t (x :: s.ctl.next) [⟨x, [.image k], 1⟩]
        (erased = false → exec (.sectorEraseEnd kept) s = .next (again s).updateStat) ∧
        exec (.eraseTimeLimit kept) s = .next (again timed).updateStat) ∧
      (failures ≠ 0 → x.area = .image → s.store.cond = .mounted → s.storeTakes →
        (erased = false → exec (.sectorEraseEnd kept) s = .next (retired (heard (ended s s.ctl.next []) false)).updateStat) ∧
        exec (.eraseTimeLimit kept) s = .next (retired (heard (ended timed s.ctl.next []) false)).updateStat))

/-- CRYPTO_JOB_END of the engine's only job: a MAC answers KEY_MAC with HMAC-SHA-256 of its data under the copy of the key (R62); a DIGEST
answers EXTEND: the cell takes the SHA-256, the log an entry, both at once, the answer holding cell, value and entry number (R59); an
orphaned result changes nothing but the engine (R56, R58, R66, R144, R153). That the two functions are those of the published
standards is the model's (log entry 20). -/
def Obligations.CryptoJobEndHandsTheResultBack : Prop :=
  ∀ (s : State) (j : Job) (r : Req), s.inbox = [] → s.engine = ⟨[j], []⟩ → j.started = true → s.store.mount = none →
    (∀ e ∈ s.keys.table, e.destroying = false) → j.for_ = .request r →
    let idle : State := { s with engine := ⟨[], []⟩ }
    let answered := fun (t : State) (payload : Bytes) => t.modPort r.port fun x =>
      { x with req := .answered, answer := some ⟨.ok, x.tag, payload⟩, flags := x.flags ||| flagAnswer, work := .none }
    (∀ data, j.orphaned = false → j.op = .mac data false → (s.port r.port).req = .working → (s.port r.port).no = r.no →
      (s.port r.port).work = .mac → exec .cryptoJobEnd s = .next (answered idle (hmac j.copy data)).updateStat) ∧
    (∀ data cell digest, j.orphaned = false → j.op = .digest none data true → (s.port r.port).req = .working →
      (s.port r.port).no = r.no → (s.port r.port).work = .extend cell digest →
      exec .cryptoJobEnd s = .next (answered
        (idle.modMeas r.port fun x => { x with cells := x.cells.set cell (sha256 data), log := x.log ++ [⟨cell, digest⟩] })
        ([BitVec.ofNat 8 cell] ++ sha256 data ++ [BitVec.ofNat 8 (s.measSet r.port).log.length])).updateStat) ∧
    (∀ data, j.orphaned = true → j.op = .mac data false → exec .cryptoJobEnd s = .next idle.updateStat)

/-- INTERNAL_READ_END hands the run's contents, as the array stands, to its requester: the DIGEST job of the chunk is submitted, for a
staging check by the Image Manager, for a release check by its Supervisor (R2, R5, R63). -/
def Obligations.InternalReadEndDigestsTheChunk : Prop :=
  ∀ (s : State) (op : ReadOp) (c chunk : Nat) (ctx : Option DigestCtx), s.inbox = [] → s.ctl.reads = [op] → s.ctl.wait = [] →
    s.ctl.prog = none → s.ctl.batch = none →
    let t : State := { s with ctl := { s.ctl with reads := [] } }
    let data := (List.range op.run.len).map fun i => memRead s.flash (op.run.start + i)
    (∀ i r, op.by_ = .internal .image → s.image.reads = [c] → s.image.checks = [⟨c, i, r, chunk, ctx⟩] →
      exec (.internalReadEnd .image) s = .next (({ t with image := { s.image with reads := [] } } : State).given
        (.mk' .image (.digest ctx data (chunkLast (s.slot i).mf chunk)) .none (.stagingCheck c))).updateStat) ∧
    (∀ m n mf, op.by_ = .internal (.supervisor m) → (s.sup m).read = some c → (s.sup m).work = .checking c n mf chunk ctx →
      exec (.internalReadEnd (.supervisor m)) s = .next ((t.modSup m fun x => { x with read := none }).given
        (.mk' .supervision (.digest ctx data (chunkLast mf chunk)) .none (.releaseCheck m c))).updateStat)

/-! ### What every command and every step keeps -/

/-- Only the ends of programs and erases and part resets change the array, only the ends of fuse attempts and part resets the fuses. A
program clears bits in its own run alone, an erase sets bits in its own sector alone; an attempt blows the fuse under attempt or
none (R1, R3, R4, R9, R38, R44). That a program's bits change at its end and not before is the model's choice (log entry 42). -/
def Obligations.OnlyTheirOwnCommandsChangeArrayAndFuses : Prop :=
  ∀ (c : Instr) (s t : State), exec c s = .next t → c.resets = false →
    (c.endsProgram = false → c.endsErase = false → t.flash = s.flash) ∧
    (c.endsProgram = true → Memory.wf s.flash = true → ∀ a : Nat,
      memRead t.flash a &&& memRead s.flash a = memRead t.flash a ∧
      (memRead t.flash a ≠ memRead s.flash a →
        ∃ p, s.ctl.programming = some p ∧ p.op.addr ≤ a ∧ a < p.op.addr + p.op.data.length)) ∧
    (c.endsErase = true → Memory.wf s.flash = true → ∀ a : Nat,
      memRead t.flash a ||| memRead s.flash a = memRead t.flash a ∧
      (memRead t.flash a ≠ memRead s.flash a →
        ∃ x n, s.ctl.erasing = some (x, n) ∧ x.base ≤ a ∧ a < x.base + x.size)) ∧
    (c.endsAttempt = false → t.fuses = s.fuses) ∧
    (c.endsAttempt = true → t.fuses = s.fuses ∨ ∃ f, s.bank.underAttempt = some f ∧ t.fuses = s.fuses.blow f)

/-- Every step keeps the memory of the array in its canonical form, the model's own list of the locations that are not erased (log entry
4); the manual gives the array its locations (R1). -/
def Obligations.EveryStepKeepsTheStatesForm : Prop :=
  ∀ s t : State, s.ok → step s = .next t → t.ok

/-- Every step, a part reset included, keeps every fuse that is blown (R38). -/
def Obligations.EveryStepKeepsBlownFuses : Prop :=
  ∀ s t : State, step s = .next t → ∀ f : FuseId, s.fuses.blown f = true → t.fuses.blown f = true

/-- After every step STAT shows the first condition of R114's table that holds: steadily on in recovery, off when none holds. -/
def Obligations.EveryStepKeepsStatRight : Prop :=
  ∀ s t : State, s.statRight → step s = .next t → t.statRight

/-- The state after reset meets what every step keeps, has an empty queue, and steps to a next state; no fuse is blown and no location of
the array is programmed, which is the model's choice for a new part (log entries 4 and 5); STAT is off (R114). -/
def Obligations.ResetMeetsWhatStepsKeep : Prop :=
  State.reset.ok ∧ State.reset.statRight ∧ State.reset.pending = [] ∧ Runs State.reset ∧ State.reset.stat.on = false ∧
    (∀ a : Nat, memRead State.reset.flash a = 0xFF#8) ∧ ∀ f : FuseId, State.reset.fuses.blown f = false
end

