-- ==== Sys2Proof/Laws/Memory.lean ====
section
/-! SUPPORT. The flash array as memory: every operation keeps the canonical form, and what each operation leaves at every
address. -/

namespace Sys2Proof.Machine

/-! ### The canonical form -/

theorem memWfFrom_weaken {m : List Host.Cell} {lo lo' : Nat} (h : memWfFrom lo m = true) (hl : lo' ≤ lo) :
    memWfFrom lo' m = true := by
  cases m with
  | nil => rfl
  | cons c r =>
    obtain ⟨a, v⟩ := c
    simp only [memWfFrom, Bool.and_eq_true, decide_eq_true_eq] at h ⊢
    exact ⟨⟨⟨by omega, h.1.1.2⟩, h.1.2⟩, h.2⟩

/-- An address below every entry reads erased. -/
theorem memRead_below {m : List Host.Cell} {lo x : Nat} (h : memWfFrom lo m = true) (hx : x < lo) :
    memRead m x = erasedByte := by
  induction m generalizing lo with
  | nil => rfl
  | cons c r ih =>
    obtain ⟨a, v⟩ := c
    simp only [memWfFrom, Bool.and_eq_true, decide_eq_true_eq] at h
    have hne : x ≠ a := by omega
    simp only [memRead, hne, if_false]
    exact ih h.2 (by omega)

theorem memWrite_wfFrom {m : List Host.Cell} {lo x : Nat} (v : Byte) (h : memWfFrom lo m = true) (hx : lo ≤ x) :
    memWfFrom lo (memWrite m x v) = true := by
  induction m generalizing lo with
  | nil =>
    by_cases hv : v = erasedByte ∨ flashBytes ≤ x
    · simp [memWrite, hv, memWfFrom]
    · have hv' := not_or.mp hv
      simp only [memWrite, hv, if_false, memWfFrom, Bool.and_eq_true, decide_eq_true_eq]
      exact ⟨⟨⟨hx, by omega⟩, hv'.1⟩, trivial⟩
  | cons c r ih =>
    obtain ⟨a, w⟩ := c
    have h0 := h
    simp only [memWfFrom, Bool.and_eq_true, decide_eq_true_eq] at h
    simp only [memWrite]
    split
    · split
      · exact h0
      · rename_i hv
        have hv' := not_or.mp hv
        simp only [memWfFrom, Bool.and_eq_true, decide_eq_true_eq]
        exact ⟨⟨⟨hx, by omega⟩, hv'.1⟩, ⟨⟨by omega, h.1.1.2⟩, h.1.2⟩, h.2⟩
    · split
      · rename_i hxa
        split
        · exact memWfFrom_weaken h.2 (by omega)
        · rename_i hv
          simp only [memWfFrom, Bool.and_eq_true, decide_eq_true_eq]
          exact ⟨⟨⟨hx, by omega⟩, hv⟩, hxa ▸ h.2⟩
      · simp only [memWfFrom, Bool.and_eq_true, decide_eq_true_eq]
        exact ⟨⟨⟨h.1.1.1, h.1.1.2⟩, h.1.2⟩, ih h.2 (by omega)⟩

/-- A write keeps the canonical form. -/
theorem memWrite_wf {m : List Host.Cell} (x : Nat) (v : Byte) (h : Memory.wf m = true) : Memory.wf (memWrite m x v) = true :=
  memWrite_wfFrom v h (Nat.zero_le x)

/-- A program keeps the canonical form. -/
theorem memProgram_wf (data stuck : Bytes) {m : List Host.Cell} (start : Nat) (h : Memory.wf m = true) :
    Memory.wf (memProgram m start data stuck) = true := by
  induction data generalizing m start stuck with
  | nil => exact h
  | cons d ds ih => exact ih stuck.tail (start + 1) (memWrite_wf start _ h)

theorem memErase_wfFrom {m : List Host.Cell} {lo : Nat} (base size : Nat) (kept : Nat → Byte) (h : memWfFrom lo m = true) :
    memWfFrom lo (memErase base size kept m) = true := by
  induction m generalizing lo with
  | nil => rfl
  | cons c r ih =>
    obtain ⟨a, v⟩ := c
    simp only [memWfFrom, Bool.and_eq_true, decide_eq_true_eq] at h
    have hr := ih h.2
    simp only [memErase]
    split
    · split
      · exact memWfFrom_weaken hr (by omega)
      · rename_i hv
        simp only [memWfFrom, Bool.and_eq_true, decide_eq_true_eq]
        exact ⟨⟨⟨h.1.1.1, h.1.1.2⟩, hv⟩, hr⟩
    · simp only [memWfFrom, Bool.and_eq_true, decide_eq_true_eq]
      exact ⟨⟨⟨h.1.1.1, h.1.1.2⟩, h.1.2⟩, hr⟩

/-- An erase keeps the canonical form. -/
theorem memErase_wf {m : List Host.Cell} (base size : Nat) (kept : Nat → Byte) (h : Memory.wf m = true) :
    Memory.wf (memErase base size kept m) = true := memErase_wfFrom base size kept h

/-! ### What each operation leaves -/

/-- What a write leaves at each address of the array. -/
theorem memRead_memWrite_from {m : List Host.Cell} {lo : Nat} (x y : Nat) (v : Byte) (h : memWfFrom lo m = true)
    (hx : x < flashBytes) : memRead (memWrite m x v) y = if y = x then v else memRead m y := by
  induction m generalizing lo with
  | nil =>
    by_cases hv : v = erasedByte
    · simp [memWrite, hv, memRead]
    · have : ¬ (v = erasedByte ∨ flashBytes ≤ x) := by
        rintro (h1 | h1)
        · exact hv h1
        · omega
      simp only [memWrite, this, if_false, memRead]
  | cons c r ih =>
    obtain ⟨a, w⟩ := c
    simp only [memWfFrom, Bool.and_eq_true, decide_eq_true_eq] at h
    have ihr := ih h.2
    simp only [memWrite]
    split
    · rename_i hlt
      split
      · rename_i hv
        have hv : v = erasedByte := hv.resolve_right (by omega)
        by_cases hy : y = x
        · have hya : y ≠ a := by omega
          have hb : memRead r y = erasedByte := memRead_below h.2 (by omega)
          simp only [memRead, hya, if_false, hb, hv]
          rw [if_pos hy]
        · simp only [hy, if_false]
      · simp only [memRead]
    · split
      · rename_i hxa
        split
        · rename_i hv
          by_cases hy : y = x
          · simp only [hy, if_true, hv]
            exact memRead_below h.2 (by omega)
          · have hya : y ≠ a := by omega
            simp only [hy, if_false, memRead, hya]
        · by_cases hy : y = x
          · simp only [memRead, hy, if_true]
          · have hya : y ≠ a := by omega
            simp only [memRead, hy, hya, if_false]
      · rename_i hxa
        by_cases hya : y = a
        · have hyx : y ≠ x := by omega
          simp only [memRead, hya, if_true]
          rw [if_neg (by omega)]
        · simp only [memRead, hya, if_false]
          exact ihr

/-- What a write leaves at each address. -/
theorem memRead_memWrite {m : List Host.Cell} (x y : Nat) (v : Byte) (h : Memory.wf m = true) (hx : x < flashBytes) :
    memRead (memWrite m x v) y = if y = x then v else memRead m y := memRead_memWrite_from x y v h hx

/-- A write past the array's end leaves every location as it was. -/
theorem memRead_memWrite_past {m : List Host.Cell} {lo : Nat} (x y : Nat) (v : Byte) (h : memWfFrom lo m = true)
    (hx : flashBytes ≤ x) : memRead (memWrite m x v) y = memRead m y := by
  induction m generalizing lo with
  | nil => simp [memWrite, hx, memRead]
  | cons c r ih =>
    obtain ⟨a, w⟩ := c
    simp only [memWfFrom, Bool.and_eq_true, decide_eq_true_eq] at h
    have h1 : ¬ x < a := by omega
    have h2 : ¬ x = a := by omega
    simp only [memWrite, h1, h2, if_false, memRead]
    split
    · rfl
    · exact ih h.2

/-- An address outside a program's run reads as before. -/
theorem memRead_memProgram_outside (data stuck : Bytes) {m : List Host.Cell} (start y : Nat) (h : Memory.wf m = true)
    (hy : y < start ∨ start + data.length ≤ y) : memRead (memProgram m start data stuck) y = memRead m y := by
  induction data generalizing m start stuck with
  | nil => rfl
  | cons d ds ih =>
    simp only [List.length_cons] at hy
    rw [memProgram, ih stuck.tail (start + 1) (memWrite_wf start _ h) (by omega)]
    by_cases hs : start < flashBytes
    · rw [memRead_memWrite start y _ h hs, if_neg (by omega)]
    · exact memRead_memWrite_past start y _ h (by omega)

/-- What an erase leaves at each address. -/
theorem memRead_memErase_from {m : List Host.Cell} {lo : Nat} (base size y : Nat) (kept : Nat → Byte)
    (h : memWfFrom lo m = true) :
    memRead (memErase base size kept m) y =
      if base ≤ y ∧ y < base + size then erasedTo (memRead m y) (kept (y - base)) else memRead m y := by
  have he : ∀ k : Byte, erasedTo erasedByte k = erasedByte := by
    intro k
    show BitVec.allOnes 8 ||| ~~~k = BitVec.allOnes 8
    exact BitVec.allOnes_or
  induction m generalizing lo with
  | nil => simp only [memErase, memRead, he, ite_self]
  | cons c r ih =>
    obtain ⟨a, v⟩ := c
    simp only [memWfFrom, Bool.and_eq_true, decide_eq_true_eq] at h
    have ihr := ih h.2
    simp only [memErase]
    split
    · rename_i hin
      split
      · rename_i hv
        by_cases hya : y = a
        · subst hya
          rw [ihr, if_pos hin, if_pos hin]
          simp only [memRead, if_true]
          rw [memRead_below h.2 (by omega), he, hv]
        · simp only [memRead, hya, if_false]
          exact ihr
      · by_cases hya : y = a
        · subst hya
          simp only [memRead, if_true]
          rw [if_pos hin]
        · simp only [memRead, hya, if_false]
          exact ihr
    · rename_i hout
      by_cases hya : y = a
      · subst hya
        simp only [memRead, if_true]
        rw [if_neg hout]
      · simp only [memRead, hya, if_false]
        exact ihr

/-- What an erase leaves at each address: the bits kept in the run, everything as before outside it. -/
theorem memRead_memErase {m : List Host.Cell} (base size y : Nat) (kept : Nat → Byte) (h : Memory.wf m = true) :
    memRead (memErase base size kept m) y =
      if base ≤ y ∧ y < base + size then erasedTo (memRead m y) (kept (y - base)) else memRead m y :=
  memRead_memErase_from base size y kept h

end Sys2Proof.Machine
end

