-- ==== Sys2Proof/Laws/State.lean ====
section
/-! SUPPORT. What each update leaves in each field of the state, one lemma a field an update, all true by unfolding. -/

namespace Sys2Proof.Machine

/-! ### One value for each master -/

@[simp] theorem Tri.get_set_same {α : Type} (t : Tri α) (m : Master) (a : α) : (t.set m a).get m = a := by cases m <;> rfl

theorem Tri.get_set_other {α : Type} (t : Tri α) (m k : Master) (a : α) (h : k ≠ m) : (t.set m a).get k = t.get k := by
  cases m <;> cases k <;> first | rfl | exact absurd rfl h

@[simp] theorem Tri.set_set {α : Type} (t : Tri α) (m : Master) (a b : α) : (t.set m a).set m b = t.set m b := by cases m <;> rfl

@[simp] theorem Tri.set_get {α : Type} (t : Tri α) (m : Master) : t.set m (t.get m) = t := by cases m <;> rfl

@[simp] theorem Tri.get_const {α : Type} (a : α) (m : Master) : (Tri.const a).get m = a := by cases m <;> rfl

/-! ### Accessors of updates -/

@[simp] theorem State.port_modPort (s : State) (m : Master) (f : Port → Port) : (s.modPort m f).port m = f (s.port m) := by
  cases m <;> rfl

theorem State.port_modPort_other (s : State) (m k : Master) (f : Port → Port) (h : k ≠ m) : (s.modPort m f).port k = s.port k :=
  Tri.get_set_other s.ports m k _ h

@[simp] theorem State.sup_modSup (s : State) (m : Master) (f : MasterRec → MasterRec) : (s.modSup m f).sup m = f (s.sup m) := by
  cases m <;> rfl

theorem State.sup_modSup_other (s : State) (m k : Master) (f : MasterRec → MasterRec) (h : k ≠ m) :
    (s.modSup m f).sup k = s.sup k :=
  Tri.get_set_other s.sups m k _ h

@[simp] theorem State.measSet_modMeas (s : State) (m : Master) (f : MeasSet → MeasSet) :
    (s.modMeas m f).measSet m = f (s.measSet m) := by
  cases m <;> rfl

/-! ### modPort -/

@[simp] theorem State.pending_modPort (s : State) (m : Master) (f : Port → Port) : (s.modPort m f).pending = s.pending := rfl
@[simp] theorem State.inbox_modPort (s : State) (m : Master) (f : Port → Port) : (s.modPort m f).inbox = s.inbox := rfl
@[simp] theorem State.clock_modPort (s : State) (m : Master) (f : Port → Port) : (s.modPort m f).clock = s.clock := rfl
@[simp] theorem State.free_modPort (s : State) (m : Master) (f : Port → Port) : (s.modPort m f).free = s.free := rfl
@[simp] theorem State.rng_modPort (s : State) (m : Master) (f : Port → Port) : (s.modPort m f).rng = s.rng := rfl
@[simp] theorem State.uid_modPort (s : State) (m : Master) (f : Port → Port) : (s.modPort m f).uid = s.uid := rfl
@[simp] theorem State.flash_modPort (s : State) (m : Master) (f : Port → Port) : (s.modPort m f).flash = s.flash := rfl
@[simp] theorem State.ctl_modPort (s : State) (m : Master) (f : Port → Port) : (s.modPort m f).ctl = s.ctl := rfl
@[simp] theorem State.store_modPort (s : State) (m : Master) (f : Port → Port) : (s.modPort m f).store = s.store := rfl
@[simp] theorem State.fuses_modPort (s : State) (m : Master) (f : Port → Port) : (s.modPort m f).fuses = s.fuses := rfl
@[simp] theorem State.bank_modPort (s : State) (m : Master) (f : Port → Port) : (s.modPort m f).bank = s.bank := rfl
@[simp] theorem State.engine_modPort (s : State) (m : Master) (f : Port → Port) : (s.modPort m f).engine = s.engine := rfl
@[simp] theorem State.image_modPort (s : State) (m : Master) (f : Port → Port) : (s.modPort m f).image = s.image := rfl
@[simp] theorem State.keys_modPort (s : State) (m : Master) (f : Port → Port) : (s.modPort m f).keys = s.keys := rfl
@[simp] theorem State.meas_modPort (s : State) (m : Master) (f : Port → Port) : (s.modPort m f).meas = s.meas := rfl
@[simp] theorem State.creds_modPort (s : State) (m : Master) (f : Port → Port) : (s.modPort m f).creds = s.creds := rfl
@[simp] theorem State.sups_modPort (s : State) (m : Master) (f : Port → Port) : (s.modPort m f).sups = s.sups := rfl
@[simp] theorem State.ports_modPort (s : State) (m : Master) (f : Port → Port) : (s.modPort m f).ports = s.ports.set m (f (s.ports.get m)) := rfl
@[simp] theorem State.stat_modPort (s : State) (m : Master) (f : Port → Port) : (s.modPort m f).stat = s.stat := rfl
@[simp] theorem State.resetCause_modPort (s : State) (m : Master) (f : Port → Port) : (s.modPort m f).resetCause = s.resetCause := rfl
@[simp] theorem State.sup_modPort (s : State) (m : Master) (f : Port → Port) (k : Master) : (s.modPort m f).sup k = s.sup k := rfl
@[simp] theorem State.slot_modPort (s : State) (m : Master) (f : Port → Port) (k : SlotId) : (s.modPort m f).slot k = s.slot k := rfl
@[simp] theorem State.measSet_modPort (s : State) (m : Master) (f : Port → Port) (k : Master) : (s.modPort m f).measSet k = s.measSet k := rfl

/-! ### modSup -/

@[simp] theorem State.pending_modSup (s : State) (m : Master) (f : MasterRec → MasterRec) : (s.modSup m f).pending = s.pending := rfl
@[simp] theorem State.inbox_modSup (s : State) (m : Master) (f : MasterRec → MasterRec) : (s.modSup m f).inbox = s.inbox := rfl
@[simp] theorem State.clock_modSup (s : State) (m : Master) (f : MasterRec → MasterRec) : (s.modSup m f).clock = s.clock := rfl
@[simp] theorem State.free_modSup (s : State) (m : Master) (f : MasterRec → MasterRec) : (s.modSup m f).free = s.free := rfl
@[simp] theorem State.rng_modSup (s : State) (m : Master) (f : MasterRec → MasterRec) : (s.modSup m f).rng = s.rng := rfl
@[simp] theorem State.uid_modSup (s : State) (m : Master) (f : MasterRec → MasterRec) : (s.modSup m f).uid = s.uid := rfl
@[simp] theorem State.flash_modSup (s : State) (m : Master) (f : MasterRec → MasterRec) : (s.modSup m f).flash = s.flash := rfl
@[simp] theorem State.ctl_modSup (s : State) (m : Master) (f : MasterRec → MasterRec) : (s.modSup m f).ctl = s.ctl := rfl
@[simp] theorem State.store_modSup (s : State) (m : Master) (f : MasterRec → MasterRec) : (s.modSup m f).store = s.store := rfl
@[simp] theorem State.fuses_modSup (s : State) (m : Master) (f : MasterRec → MasterRec) : (s.modSup m f).fuses = s.fuses := rfl
@[simp] theorem State.bank_modSup (s : State) (m : Master) (f : MasterRec → MasterRec) : (s.modSup m f).bank = s.bank := rfl
@[simp] theorem State.engine_modSup (s : State) (m : Master) (f : MasterRec → MasterRec) : (s.modSup m f).engine = s.engine := rfl
@[simp] theorem State.image_modSup (s : State) (m : Master) (f : MasterRec → MasterRec) : (s.modSup m f).image = s.image := rfl
@[simp] theorem State.keys_modSup (s : State) (m : Master) (f : MasterRec → MasterRec) : (s.modSup m f).keys = s.keys := rfl
@[simp] theorem State.meas_modSup (s : State) (m : Master) (f : MasterRec → MasterRec) : (s.modSup m f).meas = s.meas := rfl
@[simp] theorem State.creds_modSup (s : State) (m : Master) (f : MasterRec → MasterRec) : (s.modSup m f).creds = s.creds := rfl
@[simp] theorem State.sups_modSup (s : State) (m : Master) (f : MasterRec → MasterRec) : (s.modSup m f).sups = s.sups.set m (f (s.sups.get m)) := rfl
@[simp] theorem State.ports_modSup (s : State) (m : Master) (f : MasterRec → MasterRec) : (s.modSup m f).ports = s.ports := rfl
@[simp] theorem State.stat_modSup (s : State) (m : Master) (f : MasterRec → MasterRec) : (s.modSup m f).stat = s.stat := rfl
@[simp] theorem State.resetCause_modSup (s : State) (m : Master) (f : MasterRec → MasterRec) : (s.modSup m f).resetCause = s.resetCause := rfl
@[simp] theorem State.port_modSup (s : State) (m : Master) (f : MasterRec → MasterRec) (k : Master) : (s.modSup m f).port k = s.port k := rfl
@[simp] theorem State.slot_modSup (s : State) (m : Master) (f : MasterRec → MasterRec) (k : SlotId) : (s.modSup m f).slot k = s.slot k := rfl
@[simp] theorem State.measSet_modSup (s : State) (m : Master) (f : MasterRec → MasterRec) (k : Master) : (s.modSup m f).measSet k = s.measSet k := rfl

/-! ### modStore -/

@[simp] theorem State.pending_modStore (s : State) (f : Store → Store) : (s.modStore f).pending = s.pending := rfl
@[simp] theorem State.inbox_modStore (s : State) (f : Store → Store) : (s.modStore f).inbox = s.inbox := rfl
@[simp] theorem State.clock_modStore (s : State) (f : Store → Store) : (s.modStore f).clock = s.clock := rfl
@[simp] theorem State.free_modStore (s : State) (f : Store → Store) : (s.modStore f).free = s.free := rfl
@[simp] theorem State.rng_modStore (s : State) (f : Store → Store) : (s.modStore f).rng = s.rng := rfl
@[simp] theorem State.uid_modStore (s : State) (f : Store → Store) : (s.modStore f).uid = s.uid := rfl
@[simp] theorem State.flash_modStore (s : State) (f : Store → Store) : (s.modStore f).flash = s.flash := rfl
@[simp] theorem State.ctl_modStore (s : State) (f : Store → Store) : (s.modStore f).ctl = s.ctl := rfl
@[simp] theorem State.store_modStore (s : State) (f : Store → Store) : (s.modStore f).store = f s.store := rfl
@[simp] theorem State.fuses_modStore (s : State) (f : Store → Store) : (s.modStore f).fuses = s.fuses := rfl
@[simp] theorem State.bank_modStore (s : State) (f : Store → Store) : (s.modStore f).bank = s.bank := rfl
@[simp] theorem State.engine_modStore (s : State) (f : Store → Store) : (s.modStore f).engine = s.engine := rfl
@[simp] theorem State.image_modStore (s : State) (f : Store → Store) : (s.modStore f).image = s.image := rfl
@[simp] theorem State.keys_modStore (s : State) (f : Store → Store) : (s.modStore f).keys = s.keys := rfl
@[simp] theorem State.meas_modStore (s : State) (f : Store → Store) : (s.modStore f).meas = s.meas := rfl
@[simp] theorem State.creds_modStore (s : State) (f : Store → Store) : (s.modStore f).creds = s.creds := rfl
@[simp] theorem State.sups_modStore (s : State) (f : Store → Store) : (s.modStore f).sups = s.sups := rfl
@[simp] theorem State.ports_modStore (s : State) (f : Store → Store) : (s.modStore f).ports = s.ports := rfl
@[simp] theorem State.stat_modStore (s : State) (f : Store → Store) : (s.modStore f).stat = s.stat := rfl
@[simp] theorem State.resetCause_modStore (s : State) (f : Store → Store) : (s.modStore f).resetCause = s.resetCause := rfl
@[simp] theorem State.port_modStore (s : State) (f : Store → Store) (k : Master) : (s.modStore f).port k = s.port k := rfl
@[simp] theorem State.sup_modStore (s : State) (f : Store → Store) (k : Master) : (s.modStore f).sup k = s.sup k := rfl
@[simp] theorem State.slot_modStore (s : State) (f : Store → Store) (k : SlotId) : (s.modStore f).slot k = s.slot k := rfl
@[simp] theorem State.measSet_modStore (s : State) (f : Store → Store) (k : Master) : (s.modStore f).measSet k = s.measSet k := rfl

/-! ### modCtl -/

@[simp] theorem State.pending_modCtl (s : State) (f : FlashCtl → FlashCtl) : (s.modCtl f).pending = s.pending := rfl
@[simp] theorem State.inbox_modCtl (s : State) (f : FlashCtl → FlashCtl) : (s.modCtl f).inbox = s.inbox := rfl
@[simp] theorem State.clock_modCtl (s : State) (f : FlashCtl → FlashCtl) : (s.modCtl f).clock = s.clock := rfl
@[simp] theorem State.free_modCtl (s : State) (f : FlashCtl → FlashCtl) : (s.modCtl f).free = s.free := rfl
@[simp] theorem State.rng_modCtl (s : State) (f : FlashCtl → FlashCtl) : (s.modCtl f).rng = s.rng := rfl
@[simp] theorem State.uid_modCtl (s : State) (f : FlashCtl → FlashCtl) : (s.modCtl f).uid = s.uid := rfl
@[simp] theorem State.flash_modCtl (s : State) (f : FlashCtl → FlashCtl) : (s.modCtl f).flash = s.flash := rfl
@[simp] theorem State.ctl_modCtl (s : State) (f : FlashCtl → FlashCtl) : (s.modCtl f).ctl = f s.ctl := rfl
@[simp] theorem State.store_modCtl (s : State) (f : FlashCtl → FlashCtl) : (s.modCtl f).store = s.store := rfl
@[simp] theorem State.fuses_modCtl (s : State) (f : FlashCtl → FlashCtl) : (s.modCtl f).fuses = s.fuses := rfl
@[simp] theorem State.bank_modCtl (s : State) (f : FlashCtl → FlashCtl) : (s.modCtl f).bank = s.bank := rfl
@[simp] theorem State.engine_modCtl (s : State) (f : FlashCtl → FlashCtl) : (s.modCtl f).engine = s.engine := rfl
@[simp] theorem State.image_modCtl (s : State) (f : FlashCtl → FlashCtl) : (s.modCtl f).image = s.image := rfl
@[simp] theorem State.keys_modCtl (s : State) (f : FlashCtl → FlashCtl) : (s.modCtl f).keys = s.keys := rfl
@[simp] theorem State.meas_modCtl (s : State) (f : FlashCtl → FlashCtl) : (s.modCtl f).meas = s.meas := rfl
@[simp] theorem State.creds_modCtl (s : State) (f : FlashCtl → FlashCtl) : (s.modCtl f).creds = s.creds := rfl
@[simp] theorem State.sups_modCtl (s : State) (f : FlashCtl → FlashCtl) : (s.modCtl f).sups = s.sups := rfl
@[simp] theorem State.ports_modCtl (s : State) (f : FlashCtl → FlashCtl) : (s.modCtl f).ports = s.ports := rfl
@[simp] theorem State.stat_modCtl (s : State) (f : FlashCtl → FlashCtl) : (s.modCtl f).stat = s.stat := rfl
@[simp] theorem State.resetCause_modCtl (s : State) (f : FlashCtl → FlashCtl) : (s.modCtl f).resetCause = s.resetCause := rfl
@[simp] theorem State.port_modCtl (s : State) (f : FlashCtl → FlashCtl) (k : Master) : (s.modCtl f).port k = s.port k := rfl
@[simp] theorem State.sup_modCtl (s : State) (f : FlashCtl → FlashCtl) (k : Master) : (s.modCtl f).sup k = s.sup k := rfl
@[simp] theorem State.slot_modCtl (s : State) (f : FlashCtl → FlashCtl) (k : SlotId) : (s.modCtl f).slot k = s.slot k := rfl
@[simp] theorem State.measSet_modCtl (s : State) (f : FlashCtl → FlashCtl) (k : Master) : (s.modCtl f).measSet k = s.measSet k := rfl

/-! ### modImage -/

@[simp] theorem State.pending_modImage (s : State) (f : ImageMgr → ImageMgr) : (s.modImage f).pending = s.pending := rfl
@[simp] theorem State.inbox_modImage (s : State) (f : ImageMgr → ImageMgr) : (s.modImage f).inbox = s.inbox := rfl
@[simp] theorem State.clock_modImage (s : State) (f : ImageMgr → ImageMgr) : (s.modImage f).clock = s.clock := rfl
@[simp] theorem State.free_modImage (s : State) (f : ImageMgr → ImageMgr) : (s.modImage f).free = s.free := rfl
@[simp] theorem State.rng_modImage (s : State) (f : ImageMgr → ImageMgr) : (s.modImage f).rng = s.rng := rfl
@[simp] theorem State.uid_modImage (s : State) (f : ImageMgr → ImageMgr) : (s.modImage f).uid = s.uid := rfl
@[simp] theorem State.flash_modImage (s : State) (f : ImageMgr → ImageMgr) : (s.modImage f).flash = s.flash := rfl
@[simp] theorem State.ctl_modImage (s : State) (f : ImageMgr → ImageMgr) : (s.modImage f).ctl = s.ctl := rfl
@[simp] theorem State.store_modImage (s : State) (f : ImageMgr → ImageMgr) : (s.modImage f).store = s.store := rfl
@[simp] theorem State.fuses_modImage (s : State) (f : ImageMgr → ImageMgr) : (s.modImage f).fuses = s.fuses := rfl
@[simp] theorem State.bank_modImage (s : State) (f : ImageMgr → ImageMgr) : (s.modImage f).bank = s.bank := rfl
@[simp] theorem State.engine_modImage (s : State) (f : ImageMgr → ImageMgr) : (s.modImage f).engine = s.engine := rfl
@[simp] theorem State.image_modImage (s : State) (f : ImageMgr → ImageMgr) : (s.modImage f).image = f s.image := rfl
@[simp] theorem State.keys_modImage (s : State) (f : ImageMgr → ImageMgr) : (s.modImage f).keys = s.keys := rfl
@[simp] theorem State.meas_modImage (s : State) (f : ImageMgr → ImageMgr) : (s.modImage f).meas = s.meas := rfl
@[simp] theorem State.creds_modImage (s : State) (f : ImageMgr → ImageMgr) : (s.modImage f).creds = s.creds := rfl
@[simp] theorem State.sups_modImage (s : State) (f : ImageMgr → ImageMgr) : (s.modImage f).sups = s.sups := rfl
@[simp] theorem State.ports_modImage (s : State) (f : ImageMgr → ImageMgr) : (s.modImage f).ports = s.ports := rfl
@[simp] theorem State.stat_modImage (s : State) (f : ImageMgr → ImageMgr) : (s.modImage f).stat = s.stat := rfl
@[simp] theorem State.resetCause_modImage (s : State) (f : ImageMgr → ImageMgr) : (s.modImage f).resetCause = s.resetCause := rfl
@[simp] theorem State.port_modImage (s : State) (f : ImageMgr → ImageMgr) (k : Master) : (s.modImage f).port k = s.port k := rfl
@[simp] theorem State.sup_modImage (s : State) (f : ImageMgr → ImageMgr) (k : Master) : (s.modImage f).sup k = s.sup k := rfl
@[simp] theorem State.measSet_modImage (s : State) (f : ImageMgr → ImageMgr) (k : Master) : (s.modImage f).measSet k = s.measSet k := rfl

/-! ### modKeys -/

@[simp] theorem State.pending_modKeys (s : State) (f : KeyMgr → KeyMgr) : (s.modKeys f).pending = s.pending := rfl
@[simp] theorem State.inbox_modKeys (s : State) (f : KeyMgr → KeyMgr) : (s.modKeys f).inbox = s.inbox := rfl
@[simp] theorem State.clock_modKeys (s : State) (f : KeyMgr → KeyMgr) : (s.modKeys f).clock = s.clock := rfl
@[simp] theorem State.free_modKeys (s : State) (f : KeyMgr → KeyMgr) : (s.modKeys f).free = s.free := rfl
@[simp] theorem State.rng_modKeys (s : State) (f : KeyMgr → KeyMgr) : (s.modKeys f).rng = s.rng := rfl
@[simp] theorem State.uid_modKeys (s : State) (f : KeyMgr → KeyMgr) : (s.modKeys f).uid = s.uid := rfl
@[simp] theorem State.flash_modKeys (s : State) (f : KeyMgr → KeyMgr) : (s.modKeys f).flash = s.flash := rfl
@[simp] theorem State.ctl_modKeys (s : State) (f : KeyMgr → KeyMgr) : (s.modKeys f).ctl = s.ctl := rfl
@[simp] theorem State.store_modKeys (s : State) (f : KeyMgr → KeyMgr) : (s.modKeys f).store = s.store := rfl
@[simp] theorem State.fuses_modKeys (s : State) (f : KeyMgr → KeyMgr) : (s.modKeys f).fuses = s.fuses := rfl
@[simp] theorem State.bank_modKeys (s : State) (f : KeyMgr → KeyMgr) : (s.modKeys f).bank = s.bank := rfl
@[simp] theorem State.engine_modKeys (s : State) (f : KeyMgr → KeyMgr) : (s.modKeys f).engine = s.engine := rfl
@[simp] theorem State.image_modKeys (s : State) (f : KeyMgr → KeyMgr) : (s.modKeys f).image = s.image := rfl
@[simp] theorem State.keys_modKeys (s : State) (f : KeyMgr → KeyMgr) : (s.modKeys f).keys = f s.keys := rfl
@[simp] theorem State.meas_modKeys (s : State) (f : KeyMgr → KeyMgr) : (s.modKeys f).meas = s.meas := rfl
@[simp] theorem State.creds_modKeys (s : State) (f : KeyMgr → KeyMgr) : (s.modKeys f).creds = s.creds := rfl
@[simp] theorem State.sups_modKeys (s : State) (f : KeyMgr → KeyMgr) : (s.modKeys f).sups = s.sups := rfl
@[simp] theorem State.ports_modKeys (s : State) (f : KeyMgr → KeyMgr) : (s.modKeys f).ports = s.ports := rfl
@[simp] theorem State.stat_modKeys (s : State) (f : KeyMgr → KeyMgr) : (s.modKeys f).stat = s.stat := rfl
@[simp] theorem State.resetCause_modKeys (s : State) (f : KeyMgr → KeyMgr) : (s.modKeys f).resetCause = s.resetCause := rfl
@[simp] theorem State.port_modKeys (s : State) (f : KeyMgr → KeyMgr) (k : Master) : (s.modKeys f).port k = s.port k := rfl
@[simp] theorem State.sup_modKeys (s : State) (f : KeyMgr → KeyMgr) (k : Master) : (s.modKeys f).sup k = s.sup k := rfl
@[simp] theorem State.slot_modKeys (s : State) (f : KeyMgr → KeyMgr) (k : SlotId) : (s.modKeys f).slot k = s.slot k := rfl
@[simp] theorem State.measSet_modKeys (s : State) (f : KeyMgr → KeyMgr) (k : Master) : (s.modKeys f).measSet k = s.measSet k := rfl

/-! ### modCreds -/

@[simp] theorem State.pending_modCreds (s : State) (f : CredMgr → CredMgr) : (s.modCreds f).pending = s.pending := rfl
@[simp] theorem State.inbox_modCreds (s : State) (f : CredMgr → CredMgr) : (s.modCreds f).inbox = s.inbox := rfl
@[simp] theorem State.clock_modCreds (s : State) (f : CredMgr → CredMgr) : (s.modCreds f).clock = s.clock := rfl
@[simp] theorem State.free_modCreds (s : State) (f : CredMgr → CredMgr) : (s.modCreds f).free = s.free := rfl
@[simp] theorem State.rng_modCreds (s : State) (f : CredMgr → CredMgr) : (s.modCreds f).rng = s.rng := rfl
@[simp] theorem State.uid_modCreds (s : State) (f : CredMgr → CredMgr) : (s.modCreds f).uid = s.uid := rfl
@[simp] theorem State.flash_modCreds (s : State) (f : CredMgr → CredMgr) : (s.modCreds f).flash = s.flash := rfl
@[simp] theorem State.ctl_modCreds (s : State) (f : CredMgr → CredMgr) : (s.modCreds f).ctl = s.ctl := rfl
@[simp] theorem State.store_modCreds (s : State) (f : CredMgr → CredMgr) : (s.modCreds f).store = s.store := rfl
@[simp] theorem State.fuses_modCreds (s : State) (f : CredMgr → CredMgr) : (s.modCreds f).fuses = s.fuses := rfl
@[simp] theorem State.bank_modCreds (s : State) (f : CredMgr → CredMgr) : (s.modCreds f).bank = s.bank := rfl
@[simp] theorem State.engine_modCreds (s : State) (f : CredMgr → CredMgr) : (s.modCreds f).engine = s.engine := rfl
@[simp] theorem State.image_modCreds (s : State) (f : CredMgr → CredMgr) : (s.modCreds f).image = s.image := rfl
@[simp] theorem State.keys_modCreds (s : State) (f : CredMgr → CredMgr) : (s.modCreds f).keys = s.keys := rfl
@[simp] theorem State.meas_modCreds (s : State) (f : CredMgr → CredMgr) : (s.modCreds f).meas = s.meas := rfl
@[simp] theorem State.creds_modCreds (s : State) (f : CredMgr → CredMgr) : (s.modCreds f).creds = f s.creds := rfl
@[simp] theorem State.sups_modCreds (s : State) (f : CredMgr → CredMgr) : (s.modCreds f).sups = s.sups := rfl
@[simp] theorem State.ports_modCreds (s : State) (f : CredMgr → CredMgr) : (s.modCreds f).ports = s.ports := rfl
@[simp] theorem State.stat_modCreds (s : State) (f : CredMgr → CredMgr) : (s.modCreds f).stat = s.stat := rfl
@[simp] theorem State.resetCause_modCreds (s : State) (f : CredMgr → CredMgr) : (s.modCreds f).resetCause = s.resetCause := rfl
@[simp] theorem State.port_modCreds (s : State) (f : CredMgr → CredMgr) (k : Master) : (s.modCreds f).port k = s.port k := rfl
@[simp] theorem State.sup_modCreds (s : State) (f : CredMgr → CredMgr) (k : Master) : (s.modCreds f).sup k = s.sup k := rfl
@[simp] theorem State.slot_modCreds (s : State) (f : CredMgr → CredMgr) (k : SlotId) : (s.modCreds f).slot k = s.slot k := rfl
@[simp] theorem State.measSet_modCreds (s : State) (f : CredMgr → CredMgr) (k : Master) : (s.modCreds f).measSet k = s.measSet k := rfl

/-! ### modBank -/

@[simp] theorem State.pending_modBank (s : State) (f : FuseBank → FuseBank) : (s.modBank f).pending = s.pending := rfl
@[simp] theorem State.inbox_modBank (s : State) (f : FuseBank → FuseBank) : (s.modBank f).inbox = s.inbox := rfl
@[simp] theorem State.clock_modBank (s : State) (f : FuseBank → FuseBank) : (s.modBank f).clock = s.clock := rfl
@[simp] theorem State.free_modBank (s : State) (f : FuseBank → FuseBank) : (s.modBank f).free = s.free := rfl
@[simp] theorem State.rng_modBank (s : State) (f : FuseBank → FuseBank) : (s.modBank f).rng = s.rng := rfl
@[simp] theorem State.uid_modBank (s : State) (f : FuseBank → FuseBank) : (s.modBank f).uid = s.uid := rfl
@[simp] theorem State.flash_modBank (s : State) (f : FuseBank → FuseBank) : (s.modBank f).flash = s.flash := rfl
@[simp] theorem State.ctl_modBank (s : State) (f : FuseBank → FuseBank) : (s.modBank f).ctl = s.ctl := rfl
@[simp] theorem State.store_modBank (s : State) (f : FuseBank → FuseBank) : (s.modBank f).store = s.store := rfl
@[simp] theorem State.fuses_modBank (s : State) (f : FuseBank → FuseBank) : (s.modBank f).fuses = s.fuses := rfl
@[simp] theorem State.bank_modBank (s : State) (f : FuseBank → FuseBank) : (s.modBank f).bank = f s.bank := rfl
@[simp] theorem State.engine_modBank (s : State) (f : FuseBank → FuseBank) : (s.modBank f).engine = s.engine := rfl
@[simp] theorem State.image_modBank (s : State) (f : FuseBank → FuseBank) : (s.modBank f).image = s.image := rfl
@[simp] theorem State.keys_modBank (s : State) (f : FuseBank → FuseBank) : (s.modBank f).keys = s.keys := rfl
@[simp] theorem State.meas_modBank (s : State) (f : FuseBank → FuseBank) : (s.modBank f).meas = s.meas := rfl
@[simp] theorem State.creds_modBank (s : State) (f : FuseBank → FuseBank) : (s.modBank f).creds = s.creds := rfl
@[simp] theorem State.sups_modBank (s : State) (f : FuseBank → FuseBank) : (s.modBank f).sups = s.sups := rfl
@[simp] theorem State.ports_modBank (s : State) (f : FuseBank → FuseBank) : (s.modBank f).ports = s.ports := rfl
@[simp] theorem State.stat_modBank (s : State) (f : FuseBank → FuseBank) : (s.modBank f).stat = s.stat := rfl
@[simp] theorem State.resetCause_modBank (s : State) (f : FuseBank → FuseBank) : (s.modBank f).resetCause = s.resetCause := rfl
@[simp] theorem State.port_modBank (s : State) (f : FuseBank → FuseBank) (k : Master) : (s.modBank f).port k = s.port k := rfl
@[simp] theorem State.sup_modBank (s : State) (f : FuseBank → FuseBank) (k : Master) : (s.modBank f).sup k = s.sup k := rfl
@[simp] theorem State.slot_modBank (s : State) (f : FuseBank → FuseBank) (k : SlotId) : (s.modBank f).slot k = s.slot k := rfl
@[simp] theorem State.measSet_modBank (s : State) (f : FuseBank → FuseBank) (k : Master) : (s.modBank f).measSet k = s.measSet k := rfl

/-! ### modMeas -/

@[simp] theorem State.pending_modMeas (s : State) (m : Master) (f : MeasSet → MeasSet) : (s.modMeas m f).pending = s.pending := rfl
@[simp] theorem State.inbox_modMeas (s : State) (m : Master) (f : MeasSet → MeasSet) : (s.modMeas m f).inbox = s.inbox := rfl
@[simp] theorem State.clock_modMeas (s : State) (m : Master) (f : MeasSet → MeasSet) : (s.modMeas m f).clock = s.clock := rfl
@[simp] theorem State.free_modMeas (s : State) (m : Master) (f : MeasSet → MeasSet) : (s.modMeas m f).free = s.free := rfl
@[simp] theorem State.rng_modMeas (s : State) (m : Master) (f : MeasSet → MeasSet) : (s.modMeas m f).rng = s.rng := rfl
@[simp] theorem State.uid_modMeas (s : State) (m : Master) (f : MeasSet → MeasSet) : (s.modMeas m f).uid = s.uid := rfl
@[simp] theorem State.flash_modMeas (s : State) (m : Master) (f : MeasSet → MeasSet) : (s.modMeas m f).flash = s.flash := rfl
@[simp] theorem State.ctl_modMeas (s : State) (m : Master) (f : MeasSet → MeasSet) : (s.modMeas m f).ctl = s.ctl := rfl
@[simp] theorem State.store_modMeas (s : State) (m : Master) (f : MeasSet → MeasSet) : (s.modMeas m f).store = s.store := rfl
@[simp] theorem State.fuses_modMeas (s : State) (m : Master) (f : MeasSet → MeasSet) : (s.modMeas m f).fuses = s.fuses := rfl
@[simp] theorem State.bank_modMeas (s : State) (m : Master) (f : MeasSet → MeasSet) : (s.modMeas m f).bank = s.bank := rfl
@[simp] theorem State.engine_modMeas (s : State) (m : Master) (f : MeasSet → MeasSet) : (s.modMeas m f).engine = s.engine := rfl
@[simp] theorem State.image_modMeas (s : State) (m : Master) (f : MeasSet → MeasSet) : (s.modMeas m f).image = s.image := rfl
@[simp] theorem State.keys_modMeas (s : State) (m : Master) (f : MeasSet → MeasSet) : (s.modMeas m f).keys = s.keys := rfl
@[simp] theorem State.creds_modMeas (s : State) (m : Master) (f : MeasSet → MeasSet) : (s.modMeas m f).creds = s.creds := rfl
@[simp] theorem State.sups_modMeas (s : State) (m : Master) (f : MeasSet → MeasSet) : (s.modMeas m f).sups = s.sups := rfl
@[simp] theorem State.ports_modMeas (s : State) (m : Master) (f : MeasSet → MeasSet) : (s.modMeas m f).ports = s.ports := rfl
@[simp] theorem State.stat_modMeas (s : State) (m : Master) (f : MeasSet → MeasSet) : (s.modMeas m f).stat = s.stat := rfl
@[simp] theorem State.resetCause_modMeas (s : State) (m : Master) (f : MeasSet → MeasSet) : (s.modMeas m f).resetCause = s.resetCause := rfl
@[simp] theorem State.port_modMeas (s : State) (m : Master) (f : MeasSet → MeasSet) (k : Master) : (s.modMeas m f).port k = s.port k := rfl
@[simp] theorem State.sup_modMeas (s : State) (m : Master) (f : MeasSet → MeasSet) (k : Master) : (s.modMeas m f).sup k = s.sup k := rfl
@[simp] theorem State.slot_modMeas (s : State) (m : Master) (f : MeasSet → MeasSet) (k : SlotId) : (s.modMeas m f).slot k = s.slot k := rfl

/-! ### post -/

@[simp] theorem State.pending_post (s : State) (n : Notice) : (s.post n).pending = s.pending := rfl
@[simp] theorem State.inbox_post (s : State) (n : Notice) : (s.post n).inbox = s.inbox ++ [n] := rfl
@[simp] theorem State.clock_post (s : State) (n : Notice) : (s.post n).clock = s.clock := rfl
@[simp] theorem State.free_post (s : State) (n : Notice) : (s.post n).free = s.free := rfl
@[simp] theorem State.rng_post (s : State) (n : Notice) : (s.post n).rng = s.rng := rfl
@[simp] theorem State.uid_post (s : State) (n : Notice) : (s.post n).uid = s.uid := rfl
@[simp] theorem State.flash_post (s : State) (n : Notice) : (s.post n).flash = s.flash := rfl
@[simp] theorem State.ctl_post (s : State) (n : Notice) : (s.post n).ctl = s.ctl := rfl
@[simp] theorem State.store_post (s : State) (n : Notice) : (s.post n).store = s.store := rfl
@[simp] theorem State.fuses_post (s : State) (n : Notice) : (s.post n).fuses = s.fuses := rfl
@[simp] theorem State.bank_post (s : State) (n : Notice) : (s.post n).bank = s.bank := rfl
@[simp] theorem State.engine_post (s : State) (n : Notice) : (s.post n).engine = s.engine := rfl
@[simp] theorem State.image_post (s : State) (n : Notice) : (s.post n).image = s.image := rfl
@[simp] theorem State.keys_post (s : State) (n : Notice) : (s.post n).keys = s.keys := rfl
@[simp] theorem State.meas_post (s : State) (n : Notice) : (s.post n).meas = s.meas := rfl
@[simp] theorem State.creds_post (s : State) (n : Notice) : (s.post n).creds = s.creds := rfl
@[simp] theorem State.sups_post (s : State) (n : Notice) : (s.post n).sups = s.sups := rfl
@[simp] theorem State.ports_post (s : State) (n : Notice) : (s.post n).ports = s.ports := rfl
@[simp] theorem State.stat_post (s : State) (n : Notice) : (s.post n).stat = s.stat := rfl
@[simp] theorem State.resetCause_post (s : State) (n : Notice) : (s.post n).resetCause = s.resetCause := rfl
@[simp] theorem State.port_post (s : State) (n : Notice) (k : Master) : (s.post n).port k = s.port k := rfl
@[simp] theorem State.sup_post (s : State) (n : Notice) (k : Master) : (s.post n).sup k = s.sup k := rfl
@[simp] theorem State.slot_post (s : State) (n : Notice) (k : SlotId) : (s.post n).slot k = s.slot k := rfl
@[simp] theorem State.measSet_post (s : State) (n : Notice) (k : Master) : (s.post n).measSet k = s.measSet k := rfl

/-! ### drawn -/

@[simp] theorem State.pending_drawn (s : State) (n : Nat) : (s.drawn n).pending = s.pending := rfl
@[simp] theorem State.inbox_drawn (s : State) (n : Nat) : (s.drawn n).inbox = s.inbox := rfl
@[simp] theorem State.clock_drawn (s : State) (n : Nat) : (s.drawn n).clock = s.clock := rfl
@[simp] theorem State.free_drawn (s : State) (n : Nat) : (s.drawn n).free = s.free := rfl
@[simp] theorem State.rng_drawn (s : State) (n : Nat) : (s.drawn n).rng = s.rng + n := rfl
@[simp] theorem State.uid_drawn (s : State) (n : Nat) : (s.drawn n).uid = s.uid := rfl
@[simp] theorem State.flash_drawn (s : State) (n : Nat) : (s.drawn n).flash = s.flash := rfl
@[simp] theorem State.ctl_drawn (s : State) (n : Nat) : (s.drawn n).ctl = s.ctl := rfl
@[simp] theorem State.store_drawn (s : State) (n : Nat) : (s.drawn n).store = s.store := rfl
@[simp] theorem State.fuses_drawn (s : State) (n : Nat) : (s.drawn n).fuses = s.fuses := rfl
@[simp] theorem State.bank_drawn (s : State) (n : Nat) : (s.drawn n).bank = s.bank := rfl
@[simp] theorem State.engine_drawn (s : State) (n : Nat) : (s.drawn n).engine = s.engine := rfl
@[simp] theorem State.image_drawn (s : State) (n : Nat) : (s.drawn n).image = s.image := rfl
@[simp] theorem State.keys_drawn (s : State) (n : Nat) : (s.drawn n).keys = s.keys := rfl
@[simp] theorem State.meas_drawn (s : State) (n : Nat) : (s.drawn n).meas = s.meas := rfl
@[simp] theorem State.creds_drawn (s : State) (n : Nat) : (s.drawn n).creds = s.creds := rfl
@[simp] theorem State.sups_drawn (s : State) (n : Nat) : (s.drawn n).sups = s.sups := rfl
@[simp] theorem State.ports_drawn (s : State) (n : Nat) : (s.drawn n).ports = s.ports := rfl
@[simp] theorem State.stat_drawn (s : State) (n : Nat) : (s.drawn n).stat = s.stat := rfl
@[simp] theorem State.resetCause_drawn (s : State) (n : Nat) : (s.drawn n).resetCause = s.resetCause := rfl
@[simp] theorem State.port_drawn (s : State) (n : Nat) (k : Master) : (s.drawn n).port k = s.port k := rfl
@[simp] theorem State.sup_drawn (s : State) (n : Nat) (k : Master) : (s.drawn n).sup k = s.sup k := rfl
@[simp] theorem State.slot_drawn (s : State) (n : Nat) (k : SlotId) : (s.drawn n).slot k = s.slot k := rfl
@[simp] theorem State.measSet_drawn (s : State) (n : Nat) (k : Master) : (s.drawn n).measSet k = s.measSet k := rfl

/-! ### usedFree -/

@[simp] theorem State.pending_usedFree (s : State) (n : Nat) : (s.usedFree n).pending = s.pending := rfl
@[simp] theorem State.inbox_usedFree (s : State) (n : Nat) : (s.usedFree n).inbox = s.inbox := rfl
@[simp] theorem State.clock_usedFree (s : State) (n : Nat) : (s.usedFree n).clock = s.clock := rfl
@[simp] theorem State.free_usedFree (s : State) (n : Nat) : (s.usedFree n).free = s.free + n := rfl
@[simp] theorem State.rng_usedFree (s : State) (n : Nat) : (s.usedFree n).rng = s.rng := rfl
@[simp] theorem State.uid_usedFree (s : State) (n : Nat) : (s.usedFree n).uid = s.uid := rfl
@[simp] theorem State.flash_usedFree (s : State) (n : Nat) : (s.usedFree n).flash = s.flash := rfl
@[simp] theorem State.ctl_usedFree (s : State) (n : Nat) : (s.usedFree n).ctl = s.ctl := rfl
@[simp] theorem State.store_usedFree (s : State) (n : Nat) : (s.usedFree n).store = s.store := rfl
@[simp] theorem State.fuses_usedFree (s : State) (n : Nat) : (s.usedFree n).fuses = s.fuses := rfl
@[simp] theorem State.bank_usedFree (s : State) (n : Nat) : (s.usedFree n).bank = s.bank := rfl
@[simp] theorem State.engine_usedFree (s : State) (n : Nat) : (s.usedFree n).engine = s.engine := rfl
@[simp] theorem State.image_usedFree (s : State) (n : Nat) : (s.usedFree n).image = s.image := rfl
@[simp] theorem State.keys_usedFree (s : State) (n : Nat) : (s.usedFree n).keys = s.keys := rfl
@[simp] theorem State.meas_usedFree (s : State) (n : Nat) : (s.usedFree n).meas = s.meas := rfl
@[simp] theorem State.creds_usedFree (s : State) (n : Nat) : (s.usedFree n).creds = s.creds := rfl
@[simp] theorem State.sups_usedFree (s : State) (n : Nat) : (s.usedFree n).sups = s.sups := rfl
@[simp] theorem State.ports_usedFree (s : State) (n : Nat) : (s.usedFree n).ports = s.ports := rfl
@[simp] theorem State.stat_usedFree (s : State) (n : Nat) : (s.usedFree n).stat = s.stat := rfl
@[simp] theorem State.resetCause_usedFree (s : State) (n : Nat) : (s.usedFree n).resetCause = s.resetCause := rfl
@[simp] theorem State.port_usedFree (s : State) (n : Nat) (k : Master) : (s.usedFree n).port k = s.port k := rfl
@[simp] theorem State.sup_usedFree (s : State) (n : Nat) (k : Master) : (s.usedFree n).sup k = s.sup k := rfl
@[simp] theorem State.slot_usedFree (s : State) (n : Nat) (k : SlotId) : (s.usedFree n).slot k = s.slot k := rfl
@[simp] theorem State.measSet_usedFree (s : State) (n : Nat) (k : Master) : (s.usedFree n).measSet k = s.measSet k := rfl

/-! ### pass -/

@[simp] theorem State.pending_pass (s : State) (d : Nat) : (s.pass d).pending = s.pending := rfl
@[simp] theorem State.inbox_pass (s : State) (d : Nat) : (s.pass d).inbox = s.inbox := rfl
@[simp] theorem State.clock_pass (s : State) (d : Nat) : (s.pass d).clock = s.clock + d := rfl
@[simp] theorem State.free_pass (s : State) (d : Nat) : (s.pass d).free = s.free := rfl
@[simp] theorem State.rng_pass (s : State) (d : Nat) : (s.pass d).rng = s.rng := rfl
@[simp] theorem State.uid_pass (s : State) (d : Nat) : (s.pass d).uid = s.uid := rfl
@[simp] theorem State.flash_pass (s : State) (d : Nat) : (s.pass d).flash = s.flash := rfl
@[simp] theorem State.store_pass (s : State) (d : Nat) : (s.pass d).store = s.store := rfl
@[simp] theorem State.fuses_pass (s : State) (d : Nat) : (s.pass d).fuses = s.fuses := rfl
@[simp] theorem State.bank_pass (s : State) (d : Nat) : (s.pass d).bank = s.bank := rfl
@[simp] theorem State.engine_pass (s : State) (d : Nat) : (s.pass d).engine = s.engine := rfl
@[simp] theorem State.image_pass (s : State) (d : Nat) : (s.pass d).image = s.image := rfl
@[simp] theorem State.keys_pass (s : State) (d : Nat) : (s.pass d).keys = s.keys := rfl
@[simp] theorem State.meas_pass (s : State) (d : Nat) : (s.pass d).meas = s.meas := rfl
@[simp] theorem State.creds_pass (s : State) (d : Nat) : (s.pass d).creds = s.creds := rfl
@[simp] theorem State.sups_pass (s : State) (d : Nat) : (s.pass d).sups = s.sups := rfl
@[simp] theorem State.ports_pass (s : State) (d : Nat) : (s.pass d).ports = s.ports := rfl
@[simp] theorem State.stat_pass (s : State) (d : Nat) : (s.pass d).stat = s.stat := rfl
@[simp] theorem State.resetCause_pass (s : State) (d : Nat) : (s.pass d).resetCause = s.resetCause := rfl
@[simp] theorem State.port_pass (s : State) (d : Nat) (k : Master) : (s.pass d).port k = s.port k := rfl
@[simp] theorem State.sup_pass (s : State) (d : Nat) (k : Master) : (s.pass d).sup k = s.sup k := rfl
@[simp] theorem State.slot_pass (s : State) (d : Nat) (k : SlotId) : (s.pass d).slot k = s.slot k := rfl
@[simp] theorem State.measSet_pass (s : State) (d : Nat) (k : Master) : (s.pass d).measSet k = s.measSet k := rfl

/-! ### putSlot -/

@[simp] theorem State.pending_putSlot (s : State) (i : SlotId) (e : SlotEntry) : (s.putSlot i e).pending = s.pending := rfl
@[simp] theorem State.inbox_putSlot (s : State) (i : SlotId) (e : SlotEntry) : (s.putSlot i e).inbox = s.inbox := rfl
@[simp] theorem State.clock_putSlot (s : State) (i : SlotId) (e : SlotEntry) : (s.putSlot i e).clock = s.clock := rfl
@[simp] theorem State.free_putSlot (s : State) (i : SlotId) (e : SlotEntry) : (s.putSlot i e).free = s.free := rfl
@[simp] theorem State.rng_putSlot (s : State) (i : SlotId) (e : SlotEntry) : (s.putSlot i e).rng = s.rng := rfl
@[simp] theorem State.uid_putSlot (s : State) (i : SlotId) (e : SlotEntry) : (s.putSlot i e).uid = s.uid := rfl
@[simp] theorem State.flash_putSlot (s : State) (i : SlotId) (e : SlotEntry) : (s.putSlot i e).flash = s.flash := rfl
@[simp] theorem State.ctl_putSlot (s : State) (i : SlotId) (e : SlotEntry) : (s.putSlot i e).ctl = s.ctl := rfl
@[simp] theorem State.store_putSlot (s : State) (i : SlotId) (e : SlotEntry) : (s.putSlot i e).store = s.store := rfl
@[simp] theorem State.fuses_putSlot (s : State) (i : SlotId) (e : SlotEntry) : (s.putSlot i e).fuses = s.fuses := rfl
@[simp] theorem State.bank_putSlot (s : State) (i : SlotId) (e : SlotEntry) : (s.putSlot i e).bank = s.bank := rfl
@[simp] theorem State.engine_putSlot (s : State) (i : SlotId) (e : SlotEntry) : (s.putSlot i e).engine = s.engine := rfl
@[simp] theorem State.keys_putSlot (s : State) (i : SlotId) (e : SlotEntry) : (s.putSlot i e).keys = s.keys := rfl
@[simp] theorem State.meas_putSlot (s : State) (i : SlotId) (e : SlotEntry) : (s.putSlot i e).meas = s.meas := rfl
@[simp] theorem State.creds_putSlot (s : State) (i : SlotId) (e : SlotEntry) : (s.putSlot i e).creds = s.creds := rfl
@[simp] theorem State.sups_putSlot (s : State) (i : SlotId) (e : SlotEntry) : (s.putSlot i e).sups = s.sups := rfl
@[simp] theorem State.ports_putSlot (s : State) (i : SlotId) (e : SlotEntry) : (s.putSlot i e).ports = s.ports := rfl
@[simp] theorem State.stat_putSlot (s : State) (i : SlotId) (e : SlotEntry) : (s.putSlot i e).stat = s.stat := rfl
@[simp] theorem State.resetCause_putSlot (s : State) (i : SlotId) (e : SlotEntry) : (s.putSlot i e).resetCause = s.resetCause := rfl
@[simp] theorem State.port_putSlot (s : State) (i : SlotId) (e : SlotEntry) (k : Master) : (s.putSlot i e).port k = s.port k := rfl
@[simp] theorem State.sup_putSlot (s : State) (i : SlotId) (e : SlotEntry) (k : Master) : (s.putSlot i e).sup k = s.sup k := rfl
@[simp] theorem State.measSet_putSlot (s : State) (i : SlotId) (e : SlotEntry) (k : Master) : (s.putSlot i e).measSet k = s.measSet k := rfl

/-! ### raise -/

@[simp] theorem State.pending_raise (s : State) (m : Master) (flag : BitVec 8) : (s.raise m flag).pending = s.pending := rfl
@[simp] theorem State.inbox_raise (s : State) (m : Master) (flag : BitVec 8) : (s.raise m flag).inbox = s.inbox := rfl
@[simp] theorem State.clock_raise (s : State) (m : Master) (flag : BitVec 8) : (s.raise m flag).clock = s.clock := rfl
@[simp] theorem State.free_raise (s : State) (m : Master) (flag : BitVec 8) : (s.raise m flag).free = s.free := rfl
@[simp] theorem State.rng_raise (s : State) (m : Master) (flag : BitVec 8) : (s.raise m flag).rng = s.rng := rfl
@[simp] theorem State.uid_raise (s : State) (m : Master) (flag : BitVec 8) : (s.raise m flag).uid = s.uid := rfl
@[simp] theorem State.flash_raise (s : State) (m : Master) (flag : BitVec 8) : (s.raise m flag).flash = s.flash := rfl
@[simp] theorem State.ctl_raise (s : State) (m : Master) (flag : BitVec 8) : (s.raise m flag).ctl = s.ctl := rfl
@[simp] theorem State.store_raise (s : State) (m : Master) (flag : BitVec 8) : (s.raise m flag).store = s.store := rfl
@[simp] theorem State.fuses_raise (s : State) (m : Master) (flag : BitVec 8) : (s.raise m flag).fuses = s.fuses := rfl
@[simp] theorem State.bank_raise (s : State) (m : Master) (flag : BitVec 8) : (s.raise m flag).bank = s.bank := rfl
@[simp] theorem State.engine_raise (s : State) (m : Master) (flag : BitVec 8) : (s.raise m flag).engine = s.engine := rfl
@[simp] theorem State.image_raise (s : State) (m : Master) (flag : BitVec 8) : (s.raise m flag).image = s.image := rfl
@[simp] theorem State.keys_raise (s : State) (m : Master) (flag : BitVec 8) : (s.raise m flag).keys = s.keys := rfl
@[simp] theorem State.meas_raise (s : State) (m : Master) (flag : BitVec 8) : (s.raise m flag).meas = s.meas := rfl
@[simp] theorem State.creds_raise (s : State) (m : Master) (flag : BitVec 8) : (s.raise m flag).creds = s.creds := rfl
@[simp] theorem State.sups_raise (s : State) (m : Master) (flag : BitVec 8) : (s.raise m flag).sups = s.sups := rfl
@[simp] theorem State.stat_raise (s : State) (m : Master) (flag : BitVec 8) : (s.raise m flag).stat = s.stat := rfl
@[simp] theorem State.resetCause_raise (s : State) (m : Master) (flag : BitVec 8) : (s.raise m flag).resetCause = s.resetCause := rfl
@[simp] theorem State.sup_raise (s : State) (m : Master) (flag : BitVec 8) (k : Master) : (s.raise m flag).sup k = s.sup k := rfl
@[simp] theorem State.slot_raise (s : State) (m : Master) (flag : BitVec 8) (k : SlotId) : (s.raise m flag).slot k = s.slot k := rfl
@[simp] theorem State.measSet_raise (s : State) (m : Master) (flag : BitVec 8) (k : Master) : (s.raise m flag).measSet k = s.measSet k := rfl

/-! ### accept -/

@[simp] theorem State.pending_accept (s : State) (m : Master) (tag code : Byte) : (s.accept m tag code).pending = s.pending := rfl
@[simp] theorem State.inbox_accept (s : State) (m : Master) (tag code : Byte) : (s.accept m tag code).inbox = s.inbox := rfl
@[simp] theorem State.clock_accept (s : State) (m : Master) (tag code : Byte) : (s.accept m tag code).clock = s.clock := rfl
@[simp] theorem State.free_accept (s : State) (m : Master) (tag code : Byte) : (s.accept m tag code).free = s.free := rfl
@[simp] theorem State.rng_accept (s : State) (m : Master) (tag code : Byte) : (s.accept m tag code).rng = s.rng := rfl
@[simp] theorem State.uid_accept (s : State) (m : Master) (tag code : Byte) : (s.accept m tag code).uid = s.uid := rfl
@[simp] theorem State.flash_accept (s : State) (m : Master) (tag code : Byte) : (s.accept m tag code).flash = s.flash := rfl
@[simp] theorem State.ctl_accept (s : State) (m : Master) (tag code : Byte) : (s.accept m tag code).ctl = s.ctl := rfl
@[simp] theorem State.store_accept (s : State) (m : Master) (tag code : Byte) : (s.accept m tag code).store = s.store := rfl
@[simp] theorem State.fuses_accept (s : State) (m : Master) (tag code : Byte) : (s.accept m tag code).fuses = s.fuses := rfl
@[simp] theorem State.bank_accept (s : State) (m : Master) (tag code : Byte) : (s.accept m tag code).bank = s.bank := rfl
@[simp] theorem State.engine_accept (s : State) (m : Master) (tag code : Byte) : (s.accept m tag code).engine = s.engine := rfl
@[simp] theorem State.image_accept (s : State) (m : Master) (tag code : Byte) : (s.accept m tag code).image = s.image := rfl
@[simp] theorem State.keys_accept (s : State) (m : Master) (tag code : Byte) : (s.accept m tag code).keys = s.keys := rfl
@[simp] theorem State.meas_accept (s : State) (m : Master) (tag code : Byte) : (s.accept m tag code).meas = s.meas := rfl
@[simp] theorem State.creds_accept (s : State) (m : Master) (tag code : Byte) : (s.accept m tag code).creds = s.creds := rfl
@[simp] theorem State.sups_accept (s : State) (m : Master) (tag code : Byte) : (s.accept m tag code).sups = s.sups := rfl
@[simp] theorem State.stat_accept (s : State) (m : Master) (tag code : Byte) : (s.accept m tag code).stat = s.stat := rfl
@[simp] theorem State.resetCause_accept (s : State) (m : Master) (tag code : Byte) : (s.accept m tag code).resetCause = s.resetCause := rfl
@[simp] theorem State.sup_accept (s : State) (m : Master) (tag code : Byte) (k : Master) : (s.accept m tag code).sup k = s.sup k := rfl
@[simp] theorem State.slot_accept (s : State) (m : Master) (tag code : Byte) (k : SlotId) : (s.accept m tag code).slot k = s.slot k := rfl
@[simp] theorem State.measSet_accept (s : State) (m : Master) (tag code : Byte) (k : Master) : (s.accept m tag code).measSet k = s.measSet k := rfl

end Sys2Proof.Machine
end

