-- ==== Sys2Proof/Laws/Requests.lean ====
section
/-! SUPPORT. What the shared operations of a command can do: the two forms a step takes, the acceptance of a request, an
answer, a submitted job, a submitted write. Later proofs cite these in place of unfolding the operations. -/

namespace Sys2Proof.Machine

/-! ### Steps -/

/-- With no notice waiting there is nothing to settle. -/
theorem settle_calm (n : Nat) {s : State} (h : s.inbox = []) : State.settle n s = s := by
  cases n with
  | zero => rfl
  | succ n => simp only [State.settle, h]

/-- One notice is handled, its own notices before the rest. -/
theorem settle_next (n : Nat) {s : State} {x : Notice} {rest : List Notice} (h : s.inbox = x :: rest) :
    State.settle (n + 1) s =
      State.settle n { State.handle { s with inbox := [] } x with inbox := (State.handle { s with inbox := [] } x).inbox ++ rest } := by
  simp only [State.settle, h]

@[simp] theorem State.pending_updateStat (s : State) : s.updateStat.pending = s.pending := by unfold State.updateStat; split <;> rfl
@[simp] theorem State.inbox_updateStat (s : State) : s.updateStat.inbox = s.inbox := by unfold State.updateStat; split <;> rfl
@[simp] theorem State.flash_updateStat (s : State) : s.updateStat.flash = s.flash := by unfold State.updateStat; split <;> rfl
@[simp] theorem State.fuses_updateStat (s : State) : s.updateStat.fuses = s.fuses := by unfold State.updateStat; split <;> rfl

/-- STAT that shows the condition that holds is left alone. -/
theorem updateStat_right {s : State} (h : s.statPriority = s.stat.priority) : s.updateStat = s := by
  unfold State.updateStat
  rw [if_pos h]

/-- What a step leaves that its notices settle to, when no notice waited before it. -/
theorem act_settled {f : State → State} {s t : State} (hb : s.inbox = []) (h : State.settle settleBudget (f s) = t)
    (hp : t.pending = s.pending) (hm : t.flash = s.flash) (hu : t.fuses = s.fuses) (hs : t.stat = s.stat) :
    act f s = .next t.updateStat := by
  simp only [act, settle_calm _ hb, h]
  rw [← hp, ← hm, ← hu, ← hs]

/-- A step in which no block tells another anything ends in what its effect leaves, with STAT evaluated again. -/
theorem act_calm {f : State → State} {s t : State} (hb : s.inbox = []) (h : f s = t) (hi : t.inbox = [])
    (hp : t.pending = s.pending) (hm : t.flash = s.flash) (hu : t.fuses = s.fuses) (hs : t.stat = s.stat) :
    act f s = .next t.updateStat :=
  act_settled hb (by rw [h]; exact settle_calm _ hi) hp hm hu hs

/-- A step leaves the queue, the array and the fuses. -/
theorem act_frame {f : State → State} {s t : State} (h : act f s = .next t) :
    t.pending = s.pending ∧ t.flash = s.flash ∧ t.fuses = s.fuses := by
  injection h with h
  subst h
  exact ⟨State.pending_updateStat _, State.flash_updateStat _, State.fuses_updateStat _⟩

/-- A step that no other block hears of leaves what its effect leaves. -/
theorem reply_next {f : State → State} {s t : State} (h : f s = t) (hp : t.pending = s.pending) (hi : t.inbox = s.inbox)
    (hm : t.flash = s.flash) (hu : t.fuses = s.fuses) (hs : t.stat = s.stat) : reply f s = .next t := by
  unfold reply
  rw [h, ← hp, ← hi, ← hm, ← hu, ← hs]

/-- What such a step leaves of the queue, the notices, the array, the fuses and STAT. -/
theorem reply_frame {f : State → State} {s t : State} (h : reply f s = .next t) :
    t.pending = s.pending ∧ t.inbox = s.inbox ∧ t.flash = s.flash ∧ t.fuses = s.fuses ∧ t.stat = s.stat := by
  injection h with h
  subst h
  exact ⟨rfl, rfl, rfl, rfl, rfl⟩

/-! ### Acceptance and answers -/

/-- An accepted frame of a known request that passes the port's tests goes to its owner. -/
theorem request_taken {s : State} {m : Master} {n : RequestName} {payload : Bytes} (h : s.takes m n payload) (tag : Byte)
    (own : State → Req → State) : s.request m n tag payload own = own (s.accept m tag n.code) (s.nextReq m) := by
  obtain ⟨h1, h2, h3, h4, h5⟩ := h
  have e : (s.accept m tag n.code).reqOf m = s.nextReq m := by
    simp only [State.reqOf, State.nextReq, State.accept, State.port_modPort]
  have ha : (s.accept m tag n.code).available m n = true := h4
  simp only [State.request, State.judge, h1, h2, if_false, e, ha, h5, Nat.not_lt.mpr h3]
  rfl

@[simp] theorem State.port_nextReq (s : State) (m : Master) : (s.nextReq m).port = m := rfl

/-- The port after a request was accepted. -/
theorem port_accept (s : State) (m : Master) (tag code : Byte) : (s.accept m tag code).port m =
    { s.port m with req := .working, no := (s.port m).no + 1, tag := tag, code := code, answer := none, work := .none, out := [] } := by
  simp only [State.accept, State.port_modPort]

theorem live_accept (s : State) (m : Master) (tag code : Byte) : (s.accept m tag code).live (s.nextReq m) = true := by
  simp only [State.live, State.nextReq, port_accept, decide_true, Bool.and_self]

/-- The answer of the request just accepted. -/
theorem answer_accept (s : State) (m : Master) (tag code : Byte) (st : Status) (payload : Bytes) :
    (s.accept m tag code).answer (s.nextReq m) st payload = s.told m tag code st payload := by
  unfold State.answer
  rw [live_accept]
  simp only [if_true, State.accept, State.told, State.nextReq, State.modPort, Tri.get_set_same, Tri.set_set]

/-- What the request just accepted waits for. -/
theorem setWork_accept (s : State) (m : Master) (tag code : Byte) (w : Work) :
    (s.accept m tag code).setWork (s.nextReq m) w = s.working m tag code w := by
  unfold State.setWork
  rw [live_accept]
  simp only [if_true, State.accept, State.working, State.nextReq, State.modPort, Tri.get_set_same, Tri.set_set]

/-- The answer of the request just accepted, after updates that leave the ports alone. -/
theorem answer_later {s t : State} {m : Master} {tag code : Byte} (st : Status) (payload : Bytes)
    (h : t.ports = (s.accept m tag code).ports := by rfl) : t.answer (s.nextReq m) st payload = { t with ports := (s.told m tag code st payload).ports } := by
  have hl : t.live (s.nextReq m) = true := by
    cases t
    subst h
    exact live_accept s m tag code
  unfold State.answer
  rw [hl]
  simp only [if_true, State.modPort, State.nextReq, h, State.accept, State.told, Tri.get_set_same, Tri.set_set]

/-- What the request just accepted waits for, after updates that leave the ports alone. -/
theorem setWork_later {s t : State} {m : Master} {tag code : Byte} (w : Work)
    (h : t.ports = (s.accept m tag code).ports := by rfl) : t.setWork (s.nextReq m) w = { t with ports := (s.working m tag code w).ports } := by
  have hl : t.live (s.nextReq m) = true := by
    cases t
    subst h
    exact live_accept s m tag code
  unfold State.setWork
  rw [hl]
  simp only [if_true, State.modPort, State.nextReq, h, State.accept, State.working, Tri.get_set_same, Tri.set_set]

/-- An accepted frame of a known request is answered NOT_PERMITTED when it is not available. -/
theorem request_barred {s : State} {m : Master} {n : RequestName} {payload : Bytes} (h : s.accepts m payload)
    (ha : s.available m n = false) (tag : Byte) (own : State → Req → State) :
    s.request m n tag payload own = s.told m tag n.code .notPermitted [0] := by
  obtain ⟨h1, h2, h3⟩ := h
  have e : (s.accept m tag n.code).reqOf m = s.nextReq m := by
    simp only [State.reqOf, State.nextReq, State.accept, State.port_modPort]
  have ha : (s.accept m tag n.code).available m n = false := ha
  simp only [State.request, State.judge, h1, h2, if_false, e, ha, if_true, Nat.not_lt.mpr h3, State.refuse, detailCode]
  exact answer_accept s m tag n.code _ _

/-- An accepted, available request whose payload does not fit is answered BAD_REQUEST. -/
theorem request_misfit {s : State} {m : Master} {n : RequestName} {payload : Bytes} (h : s.accepts m payload)
    (ha : s.available m n = true) (hf : fits n.layout payload = false) (tag : Byte) (own : State → Req → State) :
    s.request m n tag payload own = s.told m tag n.code .badRequest [0] := by
  obtain ⟨h1, h2, h3⟩ := h
  have e : (s.accept m tag n.code).reqOf m = s.nextReq m := by
    simp only [State.reqOf, State.nextReq, State.accept, State.port_modPort]
  have ha : (s.accept m tag n.code).available m n = true := ha
  simp only [State.request, State.judge, h1, h2, if_false, e, ha, hf, if_true, Nat.not_lt.mpr h3, State.refuse, detailCode]
  exact answer_accept s m tag n.code _ _

/-- A request of a HELD master is ignored. -/
theorem request_held {s : State} {m : Master} (h : (s.sup m).phase = .held) (n : RequestName) (tag : Byte) (payload : Bytes)
    (own : State → Req → State) : s.request m n tag payload own = s := by
  simp only [State.request, State.judge, h, if_true]

/-- A request on a WORKING port raises OVERRUN, drives nothing and does nothing else. -/
theorem request_overrun {s : State} {m : Master} (h : (s.sup m).phase ≠ .held) (hw : (s.port m).req = .working)
    (n : RequestName) (tag : Byte) (payload : Bytes) (own : State → Req → State) :
    s.request m n tag payload own = (s.silent m).raise m flagOverrun := by
  simp only [State.request, State.judge, h, hw, if_false, if_true]

/-! ### Commands that are requests -/

/-- A request answered without telling another block. -/
theorem reply_request {s t : State} {m : Master} {n : RequestName} {payload : Bytes} {tag : Byte} {own : State → Req → State}
    (h : s.takes m n payload) (ho : own (s.accept m tag n.code) (s.nextReq m) = t) (hp : t.pending = s.pending)
    (hi : t.inbox = s.inbox) (hm : t.flash = s.flash) (hu : t.fuses = s.fuses) (hs : t.stat = s.stat) :
    reply (fun s => s.request m n tag payload own) s = .next t :=
  reply_next ((request_taken h tag own).trans ho) hp hi hm hu hs

/-- A request whose effect tells no other block anything. -/
theorem act_request {s t : State} {m : Master} {n : RequestName} {payload : Bytes} {tag : Byte} {own : State → Req → State}
    (h : s.takes m n payload) (hb : s.inbox = [])
    (ho : own (s.accept m tag n.code) (s.nextReq m) = t) (hi : t.inbox = []) (hp : t.pending = s.pending) (hm : t.flash = s.flash) (hu : t.fuses = s.fuses) (hs : t.stat = s.stat) :
    act (fun s => s.request m n tag payload own) s = .next t.updateStat :=
  act_calm hb ((request_taken h tag own).trans ho) hi hp hm hu hs

/-- A request whose effect ends in a submitted write. -/
theorem act_writing {s t : State} {m : Master} {n : RequestName} {payload : Bytes} {tag : Byte} {own : State → Req → State}
    {w : Write} (h : s.takes m n payload) (hb : s.inbox = [])
    (ho : own (s.accept m tag n.code) (s.nextReq m) = t.writing w) (hi : t.inbox = []) (hp : t.pending = s.pending) (hm : t.flash = s.flash) (hu : t.fuses = s.fuses) (hs : t.stat = s.stat) :
    act (fun s => s.request m n tag payload own) s = .next (t.writing w).updateStat :=
  have f : (t.writing w).inbox = t.inbox ∧ (t.writing w).pending = t.pending ∧ (t.writing w).flash = t.flash ∧
      (t.writing w).fuses = t.fuses ∧ (t.writing w).stat = t.stat := by
    unfold State.writing
    split <;> exact ⟨rfl, rfl, rfl, rfl, rfl⟩
  act_request h hb ho (f.1.trans hi) (f.2.1.trans hp) (f.2.2.1.trans hm) (f.2.2.2.1.trans hu) (f.2.2.2.2.trans hs)

/-- A refusal of the request just accepted. -/
theorem refuse_accept (s : State) (m : Master) (tag code : Byte) (st : Status) (d : Option Reason) :
    (s.accept m tag code).refuse (s.nextReq m) st d = s.told m tag code st [detailCode d] :=
  answer_accept s m tag code st _

/-! ### Frames of what a request leaves -/

@[simp] theorem State.inbox_told (s : State) (m : Master) (tag code : Byte) (st : Status) (p : Bytes) :
    (s.told m tag code st p).inbox = s.inbox := rfl
@[simp] theorem State.pending_told (s : State) (m : Master) (tag code : Byte) (st : Status) (p : Bytes) :
    (s.told m tag code st p).pending = s.pending := rfl
@[simp] theorem State.flash_told (s : State) (m : Master) (tag code : Byte) (st : Status) (p : Bytes) :
    (s.told m tag code st p).flash = s.flash := rfl
@[simp] theorem State.fuses_told (s : State) (m : Master) (tag code : Byte) (st : Status) (p : Bytes) :
    (s.told m tag code st p).fuses = s.fuses := rfl
@[simp] theorem State.inbox_working (s : State) (m : Master) (tag code : Byte) (w : Work) :
    (s.working m tag code w).inbox = s.inbox := rfl
@[simp] theorem State.pending_working (s : State) (m : Master) (tag code : Byte) (w : Work) :
    (s.working m tag code w).pending = s.pending := rfl
@[simp] theorem State.flash_working (s : State) (m : Master) (tag code : Byte) (w : Work) :
    (s.working m tag code w).flash = s.flash := rfl
@[simp] theorem State.fuses_working (s : State) (m : Master) (tag code : Byte) (w : Work) :
    (s.working m tag code w).fuses = s.fuses := rfl
@[simp] theorem State.sup_told (s : State) (m : Master) (tag code : Byte) (st : Status) (p : Bytes) (k : Master) :
    (s.told m tag code st p).sup k = s.sup k := rfl
@[simp] theorem State.sup_working (s : State) (m : Master) (tag code : Byte) (w : Work) (k : Master) :
    (s.working m tag code w).sup k = s.sup k := rfl

/-! ### Transactions -/

/-- A transaction that defines no byte leaves the port's output empty and the rest of the port as it was. -/
@[simp] theorem State.port_silent (s : State) (m : Master) : (s.silent m).port m = { s.port m with out := [] } :=
  State.port_modPort s m _

theorem State.port_silent_other (s : State) (m k : Master) (h : k ≠ m) : (s.silent m).port k = s.port k :=
  State.port_modPort_other s m k _ h

@[simp] theorem State.sup_silent (s : State) (m k : Master) : (s.silent m).sup k = s.sup k := rfl
@[simp] theorem State.inbox_silent (s : State) (m : Master) : (s.silent m).inbox = s.inbox := rfl
@[simp] theorem State.pending_silent (s : State) (m : Master) : (s.silent m).pending = s.pending := rfl
@[simp] theorem State.flash_silent (s : State) (m : Master) : (s.silent m).flash = s.flash := rfl
@[simp] theorem State.fuses_silent (s : State) (m : Master) : (s.silent m).fuses = s.fuses := rfl
@[simp] theorem State.stat_silent (s : State) (m : Master) : (s.silent m).stat = s.stat := rfl

/-- A transaction of a HELD master does nothing. -/
theorem served_held {s : State} {m : Master} (h : (s.sup m).phase = .held) (f : State → State) : s.served m f = s := by
  simp only [State.served, h, if_true]

/-- A transaction of another master is served on the silent port. -/
theorem served_taken {s : State} {m : Master} (h : (s.sup m).phase ≠ .held) (f : State → State) :
    s.served m f = f (s.silent m) := by
  simp only [State.served, h, if_false]

/-! ### Reclaims and commits -/

/-- A reclaim in progress starts no other (R28). -/
theorem testReclaim_busy {s : State} (h : s.store.reclaim ≠ none) : s.testReclaim = s := by
  unfold State.testReclaim
  rw [if_pos (Option.isSome_iff_ne_none.mpr h)]

/-- With no removal phase in progress there is no end of it to test (R178). -/
theorem wipeTest_idle {s : State} (h : s.creds.wipe ≠ .removal) : s.wipeTest = s := by
  simp only [State.wipeTest, h, false_and, if_false]

/-- With no mount in progress there is no step of it to take (R36). -/
theorem mountNext_idle {s : State} (h : s.store.mount = none) : s.mountNext = s := by
  simp only [State.mountNext, h]

/-- With nothing waiting to be submitted again a DURABLE write submits nothing (R70). -/
theorem unreported_reported {s : State} {a : ActiveWrite} (h : s.store.cur = some a) (hs : a.step = .supersede) :
    s.unreported = none := by
  unfold State.unreported; rw [h, Option.filter_some]; simp [hs]

/-- A write has its result before it has ended. -/
theorem slotWriteInFlight_of_due {s : State} {p : WriteFor → Bool} (h : s.slotResultDue p = true) :
    s.slotWriteInFlight p = true := by
  unfold State.slotResultDue State.unreported at h
  unfold State.slotWriteInFlight
  cases hc : s.store.cur with
  | none => rw [hc] at h; exact h
  | some a =>
    rw [hc, Option.filter_some] at h
    split at h
    · exact h
    · rw [Option.any_none, Bool.or_false] at h
      rw [h, Bool.true_or]

theorem submitRetries_none {s : State} (h : s.store.retry = []) : s.submitRetries = s := by
  simp only [State.submitRetries, h, List.foldl_nil]

/-! ### Jobs -/

/-- A submitted job that names no key: no state but the engine's changes. -/
theorem submitJob_keyless (s : State) (j : Job) (hk : j.key = .none) (hn : j.started = false) : s.submitJob j = s.given j := by
  unfold State.submitJob State.given Engine.given
  split
  · rfl
  · split
    · rename_i hq
      have hq' : s.engine.queue = [] := List.isEmpty_iff.mp hq
      simp only [State.startHead, hq', List.nil_append, hn, State.take, hk]
      rfl
    · rfl

/-- A submitted job that names the record key: no state but the engine's changes. -/
theorem submitJob_record (s : State) (j : Job) (hk : j.key = .record) (hn : j.started = false) :
    s.submitJob j = { s with engine := s.engine.given j (s.store.recordKey.getD []) none } := by
  unfold State.submitJob Engine.given
  split
  · rfl
  · split
    · rename_i hq
      have hq' : s.engine.queue = [] := List.isEmpty_iff.mp hq
      simp only [State.startHead, hq', List.nil_append, hn, State.take, hk]
      rfl
    · rfl

/-- A submitted job waits when the queue is not empty. -/
theorem submitJob_queued (s : State) (j : Job) (hq : s.engine.queue ≠ []) (copy : Bytes) (u : Option (Nat × Byte)) :
    s.submitJob j = { s with engine := s.engine.given j copy u } := by
  have hq' : s.engine.queue.isEmpty = false := by
    cases h : s.engine.queue with
    | nil => exact absurd h hq
    | cons a b => rfl
  unfold State.submitJob Engine.given
  split
  · rfl
  · simp only [hq']
    rfl

/-- A submitted job whose key is taken at once from an idle engine, without a charge. -/
theorem submitJob_taken (s : State) (j : Job) (hq : s.engine.queue = []) (hn : j.started = false) {copy : Bytes}
    {u : Option (Nat × Byte)} (ht : ∀ e : Engine, State.take { s with engine := e } j.key = .taken { s with engine := e } copy u) :
    s.submitJob j = { s with engine := s.engine.given j copy u } := by
  unfold State.submitJob Engine.given
  simp only [hq, List.any_nil, List.isEmpty_nil, if_true, List.nil_append, State.startHead, hn, ht]
  rfl

/-! ### Writes -/

/-- What a submitted write leaves of the notices, the queue, the array, the fuses and STAT. -/
theorem writing_frame (s : State) (w : Write) : (s.writing w).inbox = s.inbox ∧ (s.writing w).pending = s.pending ∧
    (s.writing w).flash = s.flash ∧ (s.writing w).fuses = s.fuses ∧ (s.writing w).stat = s.stat := by
  unfold State.writing
  split <;> exact ⟨rfl, rfl, rfl, rfl, rfl⟩

/-- A write that carries its own payload when begun, and is neither a copy nor a forced close. -/
def WriteFor.plain : WriteFor → Bool
  | .credCount _ _ => false
  | .reclaimCopy => false
  | .closeSector _ => false
  | .slotAgain _ _ => false
  | .credPut _ _ isNew => isNew
  | _ => true

theorem atBegin_plain (s : State) (w : Write) (h : w.for_.plain = true) : s.atBegin w = w := by
  unfold State.atBegin
  split
  · rename_i hf
    rw [hf] at h
    exact absurd h (by simp [WriteFor.plain])
  · rename_i hf
    rw [hf] at h
    exact absurd h (by simp [WriteFor.plain])
  · rename_i hf
    rw [hf] at h
    exact absurd h (by simp [WriteFor.plain])
  · rfl

/-- A write submitted to a store that takes it. -/
theorem submitWrite_taken (s : State) (w : Write) (h : s.storeTakes) (hw : w.for_.plain = true) :
    s.submitWrite w = s.writing w := by
  obtain ⟨hc, hq⟩ := h
  unfold State.submitWrite State.writing
  simp only [hc, if_false]
  cases hcur : s.store.cur with
  | some a =>
    unfold State.beginNext
    simp only [State.store_modStore, hcur]
  | none =>
    obtain ⟨hws, hseq⟩ := hq hcur
    unfold State.beginNext
    simp only [State.store_modStore, hcur, hws, List.nil_append, atBegin_plain _ w hw]
    have hover : ∀ t : State, t.copyOvertaken w = false := by
      intro t
      have : w.for_ ≠ .reclaimCopy := by
        intro e
        rw [e] at hw
        exact absurd hw (by simp [WriteFor.plain])
      simp only [State.copyOvertaken, this, decide_false, Bool.false_and]
    split
    · rename_i hf
      rw [hf] at hw
      exact absurd hw (by simp [WriteFor.plain])
    · simp only [hover, Nat.not_lt.mpr hseq, if_false]
      rw [submitJob_record _ _ rfl rfl]
      simp only [State.modStore, State.begun, Bool.false_eq_true, if_false, ← hws]

end Sys2Proof.Machine
end

