-- ==== Sys2Proof/Laws/Commands.lean ====
section
/-! SUPPORT. What every command leaves: the fuses, the array, the notices; what a master reset gives up, and when a reclaim's
victim is erased. -/

namespace Sys2Proof.Machine

/-! ### Fuses -/

theorem Fuses.row_modRow (f : Fuses) (r k : Nat) (g : SignerRow → SignerRow) :
    (f.modRow r g).row k = g (f.row k) ∨ (f.modRow r g).row k = f.row k := by
  rcases r with _ | _ | _ | r <;> rcases k with _ | _ | _ | k <;> first | exact Or.inl rfl | exact Or.inr rfl

theorem Fuses.rest_modRow (f : Fuses) (r : Nat) (g : SignerRow → SignerRow) :
    (f.modRow r g).serial = f.serial ∧ (f.modRow r g).seed = f.seed ∧ (f.modRow r g).written = f.written ∧
      (f.modRow r g).revoke = f.revoke ∧ (f.modRow r g).counters = f.counters ∧ (f.modRow r g).closed = f.closed := by
  rcases r with _ | _ | _ | r <;> exact ⟨rfl, rfl, rfl, rfl, rfl, rfl⟩

theorem getLsbD_or_left {w : Nat} {x : BitVec w} (y : BitVec w) {i : Nat} (h : x.getLsbD i = true) :
    (x ||| y).getLsbD i = true := by
  rw [BitVec.getLsbD_or, h, Bool.true_or]

/-- Blowing a fuse leaves every blown fuse blown. -/
theorem Fuses.blow_kept (f : Fuses) (x y : FuseId) (h : f.blown y = true) : (f.blow x).blown y = true := by
  have hd : ∀ (r k : Nat) (g : SignerRow → SignerRow) (p : SignerRow → Bool), (∀ w, p w = true → p (g w) = true) →
      p (f.row k) = true → p ((f.modRow r g).row k) = true := by
    intro r k g p hg hk
    rcases f.row_modRow r k g with e | e <;> rw [e]
    · exact hg _ hk
    · exact hk
  have hm := f.rest_modRow
  cases x with
  | serial i =>
    cases y with
    | serial j => exact getLsbD_or_left (x := f.serial) _ h
    | _ => exact h
  | seed i =>
    cases y with
    | seed j => exact getLsbD_or_left (x := f.seed) _ h
    | _ => exact h
  | identityWritten =>
    cases y with
    | identityWritten => rfl
    | _ => exact h
  | closed =>
    cases y with
    | closed => rfl
    | _ => exact h
  | revoke s =>
    cases y with
    | revoke j => exact getLsbD_or_left (x := f.revoke) _ h
    | _ => exact h
  | counter m k =>
    cases y with
    | counter n j =>
      simp only [Fuses.blow, Fuses.blown] at h ⊢
      by_cases e : n = m
      · subst e
        rw [Tri.get_set_same]
        exact getLsbD_or_left _ h
      · rw [Tri.get_set_other _ _ _ _ e]
        exact h
    | _ => simp only [Fuses.blow, Fuses.blown] at h ⊢; exact h
  | digest r i =>
    cases y with
    | digest k j =>
      simp only [Fuses.blow, Fuses.blown] at h ⊢
      exact hd r k _ (fun w => w.digest.getLsbD j) (fun w hw => getLsbD_or_left _ hw) h
    | signerWritten k =>
      simp only [Fuses.blow, Fuses.blown] at h ⊢
      exact hd r k _ (fun w => w.written) (fun w hw => hw) h
    | signerDefective k =>
      simp only [Fuses.blow, Fuses.blown] at h ⊢
      exact hd r k _ (fun w => w.defective) (fun w hw => hw) h
    | _ => simp only [Fuses.blow, Fuses.blown, hm] at h ⊢; exact h
  | signerWritten r =>
    cases y with
    | digest k j =>
      simp only [Fuses.blow, Fuses.blown] at h ⊢
      exact hd r k _ (fun w => w.digest.getLsbD j) (fun w hw => hw) h
    | signerWritten k =>
      simp only [Fuses.blow, Fuses.blown] at h ⊢
      exact hd r k _ (fun w => w.written) (fun w _ => rfl) h
    | signerDefective k =>
      simp only [Fuses.blow, Fuses.blown] at h ⊢
      exact hd r k _ (fun w => w.defective) (fun w hw => hw) h
    | _ => simp only [Fuses.blow, Fuses.blown, hm] at h ⊢; exact h
  | signerDefective r =>
    cases y with
    | digest k j =>
      simp only [Fuses.blow, Fuses.blown] at h ⊢
      exact hd r k _ (fun w => w.digest.getLsbD j) (fun w hw => hw) h
    | signerWritten k =>
      simp only [Fuses.blow, Fuses.blown] at h ⊢
      exact hd r k _ (fun w => w.written) (fun w hw => hw) h
    | signerDefective k =>
      simp only [Fuses.blow, Fuses.blown] at h ⊢
      exact hd r k _ (fun w => w.defective) (fun w _ => rfl) h
    | _ => simp only [Fuses.blow, Fuses.blown, hm] at h ⊢; exact h

/-! ### Programs and erases only change their run -/

/-- A program only clears bits. -/
theorem memRead_memProgram_clears (data stuck : Bytes) {m : List Host.Cell} (start y : Nat) (h : Memory.wf m = true) :
    memRead (memProgram m start data stuck) y &&& memRead m y = memRead (memProgram m start data stuck) y := by
  induction data generalizing m start stuck with
  | nil => exact BitVec.and_self
  | cons d ds ih =>
    have hw := memWrite_wf start (programmed (memRead m start) d (stuck.headD 0)) h
    have e := ih stuck.tail (start + 1) hw
    simp only [memProgram]
    by_cases hs : start < flashBytes
    · rw [memRead_memWrite start y _ h hs] at e
      by_cases hy : y = start
      · rw [if_pos hy, hy] at e
        rw [hy]
        revert e
        generalize memRead (memProgram _ _ _ _) start = z
        intro e
        have hp : programmed (memRead m start) d (stuck.headD 0) = memRead m start &&& (d ||| stuck.headD 0) := rfl
        rw [hp] at e
        rw [← e, BitVec.and_assoc, BitVec.and_assoc, BitVec.and_comm (d ||| stuck.headD 0), ← BitVec.and_assoc (memRead m start),
          BitVec.and_self]
      · rw [if_neg hy] at e
        exact e
    · rw [memRead_memWrite_past start y _ h (by omega)] at e
      exact e

/-- An erase only sets bits. -/
theorem memRead_memErase_sets {m : List Host.Cell} (base size y : Nat) (kept : Nat → Byte) (h : Memory.wf m = true) :
    memRead (memErase base size kept m) y ||| memRead m y = memRead (memErase base size kept m) y := by
  rw [memRead_memErase base size y kept h]
  split
  · rw [erasedTo, BitVec.or_assoc, BitVec.or_comm (~~~_), ← BitVec.or_assoc, BitVec.or_self]
  · exact BitVec.or_self

/-! ### What a master reset gives up -/

theorem cutBoot_none {s : State} {m : Master} (h : (s.port m).boot = none) : s.cutBoot m = s := by
  unfold State.cutBoot
  rw [h]

/-- The end of a boot read reaches the Flash Controller alone. -/
theorem dropBootRead_ctl (s : State) (m : Master) : ∃ c, s.dropBootRead m = { s with ctl := c } := by
  unfold State.dropBootRead
  split
  · exact ⟨_, rfl⟩
  · exact ⟨_, rfl⟩

theorem bootWraps_ctl (s : State) (m : Master) (b : BootTrans) (n : Nat) : ∃ c, s.bootWraps m b n = { s with ctl := c } := by
  unfold State.bootWraps
  split
  · exact ⟨s.ctl, rfl⟩
  · split
    · dsimp only
      split
      · exact ⟨_, rfl⟩
      · exact ⟨s.ctl, rfl⟩
    · exact ⟨s.ctl, rfl⟩

/-- The end of a BOOT-READ leaves everything but the Flash Controller, its port's transaction and the bytes driven. -/
theorem bootEnded_frame (s : State) (m : Master) (waited clocked : Nat) :
    ∃ c out, s.bootEnded m waited clocked = { s with ctl := c }.modPort m fun p =>
      if (s.port m).boot = none then p else { p with boot := none, out := out } := by
  unfold State.bootEnded
  cases h : (s.port m).boot with
  | none => exact ⟨s.ctl, [], by cases m <;> rfl⟩
  | some b =>
    obtain ⟨c, hc⟩ := bootWraps_ctl s m b clocked
    simp only [hc]
    obtain ⟨c', hc'⟩ := dropBootRead_ctl { s with ctl := c } m
    rw [hc']
    exact ⟨c', _, rfl⟩

theorem dropKept_engine (s : State) (m : Master) : ∃ e, s.dropKept m = { s with engine := e } ∧ e.queue = s.engine.queue :=
  ⟨_, rfl, rfl⟩

/-! ### The reclaim's walk -/

/-- The victim is erased only when no program into it is outstanding or waiting (R30). -/
theorem eraseVictim_erasing {s : State} {r : Reclaim} (h : s.progInto r.victim = false) :
    s.eraseVictim r = (s.setReclaim (some { r with step := .erasing })).requestErase .reclaim [storeSector r.victim] := by
  unfold State.eraseVictim
  rw [h]
  rfl

theorem eraseVictim_waits {s : State} {r : Reclaim} (h : s.progInto r.victim = true) :
    s.eraseVictim r = s.setReclaim (some { r with step := .settling }) := by
  unfold State.eraseVictim
  rw [if_pos h]

/-- The end of a SUPERSEDED program changes nothing for a reclaim that does not wait for it. -/
theorem victimSettled_idle {s : State} (h : ∀ r, s.store.reclaim = some r → r.step ≠ .settling) : s.victimSettled = s := by
  unfold State.victimSettled
  split
  · rename_i r e
    exact if_neg (h r e)
  · rfl

theorem modMount_idle {s : State} (h : s.store.mount = none) (f : Mount → Mount) : s.modMount f = s := by
  obtain ⟨p, i, c, fr, rng, uid, fl, ctl, store, rest⟩ := s
  obtain ⟨_⟩ := store
  cases h
  rfl

theorem noteSuperseded_idle {s : State} (h : s.store.mount = none) (p : StoreProg) : s.noteSuperseded p = s := by
  unfold State.noteSuperseded
  split
  · exact modMount_idle h _
  · rfl

end Sys2Proof.Machine
end

