-- ==== Sys2Proof/Tests/Slice0.lean ====
section
/-! SUPPORT. Tests: what the well-formedness check refuses, known answers of the algorithms, and, for each statement of the
certificates, states and operands that meet its hypotheses. -/

namespace Sys2Proof.Tests

set_option Elab.async false

open Machine

/-! ### Well-formedness: one ill-formed command for each check -/

theorem test_wf_refuses_a_long_payload :
    payloadFits (List.replicate 1025 0) = false ∧ payloadFits (List.replicate 1024 0) = true ∧
      Instr.wf (.keyFind .app 0 (List.replicate 1025 0)) = false := by decide +kernel

theorem test_wf_refuses_another_modes_byte :
    Instr.wf (.activateNext .app 0 [0, 1]) = false ∧ Instr.wf (.activateNow .app 0 [0, 2]) = false ∧
      Instr.wf (.activateInstall .app 0 [0, 0]) = false ∧ Instr.wf (.activateInstall .app 0 [0, 2]) = true ∧
      Instr.wf (.activateNext .app 0 [0, 3]) = true := by decide +kernel

theorem test_wf_refuses_stuck_bits_past_a_page : Instr.wf (.programEnd (List.replicate 257 0)) = false := by decide +kernel

theorem test_wf_refuses_kept_bits_past_a_sector : Instr.wf (.sectorEraseEnd [(65536, 0)]) = false := by decide +kernel

theorem test_wf_refuses_a_known_transaction_code : Instr.wf (.unknownTransactionCode .app 0x6E) = false := by decide +kernel

theorem test_wf_refuses_a_known_request_code : Instr.wf (.unknownRequest .app 0 0x52 []) = false := by decide +kernel

theorem test_wf_refuses_more_wait_than_bytes : Instr.wf (.bootReadEnd .app 1 0) = false := by decide +kernel

theorem test_wf_refuses_a_credential_past_31 : Instr.wf (.lockoutExpiry 32) = false := by decide +kernel

/-! ### Known answers -/

theorem test_crc16_of_the_check_string : crc16 (ascii "123456789") = 0x29B1#16 := by decide +kernel

theorem test_sha256_of_abc :
    sha256 (ascii "abc") =
      [0xBA, 0x78, 0x16, 0xBF, 0x8F, 0x01, 0xCF, 0xEA, 0x41, 0x41, 0x40, 0xDE, 0x5D, 0xAE, 0x22, 0x23,
       0xB0, 0x03, 0x61, 0xA3, 0x96, 0x17, 0x7A, 0x9C, 0xB4, 0x10, 0xFF, 0x61, 0xF2, 0x00, 0x15, 0xAD] := by decide +kernel

theorem test_no_word_spells_a_command : decodeTableWord 8 0x3A = none := rfl

/-! ### States for witnesses -/

theorem all_slots (p : SlotId → Prop) (h : ∀ m ∈ Master.all, p ⟨m, .s0⟩ ∧ p ⟨m, .s1⟩) : ∀ i, p i := by
  rintro ⟨m, n⟩
  have := h m (by cases m <;> decide)
  cases n
  · exact this.1
  · exact this.2

theorem all_masters (p : Master → Prop) (h : ∀ m ∈ Master.all, p m) : ∀ m, p m := fun m => h m (by cases m <;> decide)

def running : MasterRec :=
  { MasterRec.reset with
    phase := .running, hold := none, holdDeadline := none, served := .slot .s0, servedState := some .current }

/-- A manifest with the given first six bytes and body length. -/
def mfOf (head : Bytes) (len : Nat) : Bytes :=
  head ++ [0, 0] ++ le 4 1 ++ le 4 len ++ List.replicate 160 0

def cur : SlotEntry := { SlotEntry.blank with state := .current, manifest := some (mfOf [1, 0, 0, 0, 0, 0] 300), checked := true }

def entry (st : SlotState) : SlotEntry :=
  { SlotEntry.blank with state := st, manifest := some (mfOf [1, 0, 0, 0, 0, 0] 300), checked := true }

/-- An OWNED part with its store MOUNTED, its masters RUNNING on a CURRENT slot 0, their grants open. -/
def owned : State :=
  { State.reset with
    store := { Store.reset with cond := .mounted }
    bank := { FuseBank.reset with
      reading := false, view := { FuseView.blank with identity := .programmed, signers := List.replicate 4 ⟨.good, some []⟩ } }
    creds := { CredMgr.reset with lifecycle := .owned, grants := .const (some 1000), button := .released }
    sups := .const running
    image := { ImageMgr.reset with slots := .const ⟨cur, .blank⟩ } }

def phaseOf (lc : Lifecycle) : State := { owned with creds := { owned.creds with lifecycle := lc } }

def noGrants : State := { owned with creds := { owned.creds with grants := .const none } }

/-- APP's port busy. -/
def busy : State := owned.modPort .app fun p => { p with req := .working }

def withSlot1 (m : Master) (e : SlotEntry) (s : State := owned) : State := s.putSlot ⟨m, .s1⟩ e

/-- APP's slot 1 in its staging session, of 300 bytes. -/
def session (st : SlotState) (received : Nat) : State :=
  withSlot1 .app { entry st with owner := some .app, received := received }

/-- A commit in progress for APP's slot 1. -/
def committing (s : State) : State :=
  let c : Commit :=
    { cause := ⟨.app, .s1, [], .install, ⟨.app, 0⟩⟩, level := 0, revoke := 0, step := .journal, stopped := false,
      faulted := false, failedWrite := none }
  { s with image := { s.image with commit := some c } }

def booting (w : Window) (sv : Served) (st : ServedState) : State :=
  owned.modSup .app fun r => { r with phase := .booting, window := some w, served := sv, servedState := some st }

def held (h : HoldCause) : State :=
  owned.modSup .app fun r => { r with phase := .held, hold := some h, holdDeadline := some 50 }

def withCtl (c : FlashCtl) : State := { owned with ctl := c }

def pageProg : ActiveProg := ⟨⟨.image, 256, [0, 0]⟩, 0, false⟩

def batchOf (st : BatchState) : Batch := ⟨st, 200, [⟨.image, 3⟩, ⟨.image, 4⟩], [], 0, 0⟩

/-- A SECRET VOLATILE key on handle 3 that every master may use. -/
def key (kind : KeyKind) (usages : Byte) : KeyEntry :=
  { handle := 3, gen := 0, cls := .volatile, kind := kind, usages := usages, users := 7, binding := .none, label := [65],
    limit := none, destroying := false, material := List.replicate 32 1, pub := [] }

def withKeys (t : List KeyEntry) : State := { owned with keys := { owned.keys with table := t } }

/-- A stack of one entry, rooted on handle 3. -/
def withStack (t : List KeyEntry) : State :=
  { withKeys t with keys := { (withKeys t).keys with stackOf := .const [⟨List.replicate 32 2, 3, 0, List.replicate 32 3⟩] } }

def cred (name : Bytes) (v : CredValue) : CredEntry := ⟨0, name, .owner, 7, false, v, 1, 0, none⟩

def withCred (e : CredEntry) : State := { owned with creds := { owned.creds with table := [e] } }

/-! ### The queue, time and resets -/

theorem test_meets_the_queue :
    State.reset.pending = [] ∧ (withCtl { FlashCtl.reset with prog := some pageProg, batch := some (batchOf .running) }).pending = [] ∧
      pageProg.suspended = false ∧ ({ pageProg with suspended := true } : ActiveProg).suspended = true ∧
      (batchOf .running).state = .running ∧ (batchOf .gathering).state ≠ .running := by decide +kernel

theorem test_meets_part_resets :
    owned.takes .app .partReset [] ∧ owned.granted .app = true ∧
      (noGrants.takes .app .partReset [] ∧ noGrants.creds.lifecycle = .owned ∧ noGrants.granted .app = false) ∧
      owned.accepts .radio [] := by
  unfold State.takes State.accepts; decide +kernel

/-- The addresses beside a program's run and beside a sector under erase. -/
theorem test_meets_part_reset_kept :
    let s := withCtl { FlashCtl.reset with prog := some pageProg, batch := some (batchOf .running) }
    Memory.wf s.flash = true ∧ s.ctl.prog = some pageProg ∧ s.ctl.underErase = some ⟨.image, 3⟩ ∧
      (255 < pageProg.op.addr ∧ pageProg.op.addr + pageProg.op.data.length ≤ 258) ∧
      (196607 < (Sector.mk .image 3).base ∧ (Sector.mk .image 3).base + (Sector.mk .image 3).size ≤ 262144) ∧
      s.bank.underAttempt = none ∧
      ({ owned.bank with active := some ⟨.close, .commit, [.closed], 0, false, false⟩ } : FuseBank).underAttempt = some .closed := by
  decide +kernel

/-! ### Ports -/

theorem test_meets_held_and_discarded :
    ((Instr.statusRead .app).transaction = some .app ∧ (State.reset.sup .app).phase = .held ∧ State.reset.inbox = [] ∧
      State.reset.statRight) ∧
    ((owned.sup .app).phase ≠ .held ∧ (0x3B : Byte) ∉ [0x3A, 0x5C, 0x6E, 0x71, 0x73, 0x75] ∧ (owned.port .app).req ≠ .working ∧
      (busy.sup .app).phase ≠ .held ∧ (busy.port .app).req = .working) ∧
    (1024 < leNat (slice 2 2 [1, 0, 1, 4]) ∧ ([] : Bytes).length ≠ 6 + leNat (slice 2 2 []) ∧
      [0, 0].drop (4 + leNat (slice 2 2 [1, 0, 0, 0, 0, 0])) ≠ crcBytes [1, 0, 0, 0]) ∧
    ((Instr.identify .app 1 []).request = some (.app, .identify, 1, []) ∧ (Instr.identify .app 1 []).wf = true ∧ busy.inbox = [] ∧
      busy.statRight) := by
  unfold State.statRight; decide +kernel

theorem test_meets_port_tests :
    owned.accepts .app [0] ∧ owned.accepts .radio [] ∧ (∀ n : RequestName, n.code ≠ 0x00) ∧
      ((Instr.partReset .radio 1 []).request = some (.radio, .partReset, 1, []) ∧ (Instr.partReset .radio 1 []).wf = true ∧
        owned.inbox = [] ∧ owned.statRight ∧ owned.available .radio .partReset = false) ∧
      ((Instr.identify .app 1 [0]).request = some (.app, .identify, 1, [0]) ∧ (Instr.identify .app 1 [0]).wf = true ∧
        owned.available .app .identify = true ∧ fits RequestName.identify.layout [0] = false) := by
  unfold State.statRight State.accepts
  exact ⟨by decide +kernel, by decide +kernel, fun n => by cases n <;> decide, by decide +kernel, by decide +kernel⟩

theorem test_meets_transactions :
    (owned.sup .app).phase ≠ .held ∧ (owned.port .app).req = .empty ∧ (busy.port .app).req = .working ∧
      (let t := owned.told .app 1 1 .ok []
       (t.port .app).req = .answered ∧ (t.port .app).answer = some ⟨.ok, 1, []⟩) ∧ (busy.sup .app).phase ≠ .held ∧
      owned.alertAsserted .app = false ∧ (owned.told .app 1 1 .ok []).alertAsserted .app = true := by decide +kernel

def bootAt (s : State) (a : Option Nat) (opened : Bool) : State :=
  s.modPort .app fun p => { p with boot := some ⟨a, 0, opened, false⟩ }

/-- Window addresses at the body's last byte and just past it. -/
theorem test_meets_boot_reads :
    (let s := booting .open (.slot .s0) .current
     s.inbox = [] ∧ (s.sup .app).phase = .booting ∧ s.ctl.reads = [] ∧ s.ctl.wait = [] ∧
       (let t := bootAt s none false
        (t.port .app).boot = some ⟨none, 0, false, false⟩ ∧ (t.sup .app).window = some .open ∧ (t.sup .app).served = .slot .s0 ∧
          manifestLength (t.slot ⟨.app, .s0⟩).mf ≤ (300#24).toNat ∧ (299#24).toNat < manifestLength (t.slot ⟨.app, .s0⟩).mf ∧
          t.ctl.outstanding = [] ∧ t.ctl.prog = none ∧ t.ctl.batch = none)) ∧
    ((booting .pending .none .current).sup .app).window = some .pending ∧
    ((booting .open .rescue .rescue).sup .app).served = .rescue ∧
    (let op : ReadOp := ⟨.boot .app, ⟨299, 1⟩⟩
     let s := bootAt { booting .open (.slot .s0) .current with ctl := { FlashCtl.reset with reads := [op] } } (some 299) true
     s.inbox = [] ∧ 299 + 2 ≤ 16777216 ∧ (s.port .app).boot = some ⟨some 299, 0, true, false⟩ ∧ s.ctl.reads = [op] ∧
       op.by_ = .boot .app ∧ s.ctl.wait = [] ∧ s.ctl.prog = none ∧ s.ctl.batch = none) ∧
    (let s := bootAt (booting .open .rescue .rescue) (some 65535) true
     (s.port .app).boot = some ⟨some 65535, 0, true, false⟩ ∧ s.ctl.reads = []) ∧
    (let s := bootAt (booting .pending .none .current) (some 0) false
     (s.port .app).boot = some ⟨some 0, 0, false, false⟩ ∧ s.ctl.reads = []) := by decide +kernel

/-- APP's BOOT_READ at its address phase, the Flash Controller as given. -/
def bootAsks (c : FlashCtl) : State := { bootAt (booting .open (.slot .s0) .current) none false with ctl := c }

/-- The boot read of the last body byte, with the array of each row of R13's table, the suspend count at its end and one below. -/
theorem test_meets_boot_read_grants :
    let b := fun (n : Nat) => { batchOf .running with suspends := n }
    let held : FlashCtl := { FlashCtl.reset with outstanding := [⟨⟨.image, 0⟩, [], 0⟩] }
    let meets := fun (c : FlashCtl) =>
      let s := bootAsks c
      s.inbox = [] ∧ (s.sup .app).phase = .booting ∧ (∀ op ∈ s.ctl.reads, op.by_ ≠ .boot .app) ∧ s.ctl.wait = [] ∧
        (s.port .app).boot = some ⟨none, 0, false, false⟩ ∧ (s.sup .app).window = some .open ∧ (s.sup .app).served = .slot .s0 ∧
        (299#24).toNat < manifestLength (s.slot ⟨.app, .s0⟩).mf
    let run : Run := ⟨(SlotId.mk .app .s0).bodyAddr 299, 1⟩
    (meets held ∧ held.held run = true) ∧
    (meets FlashCtl.reset ∧ FlashCtl.reset.held run = false ∧ FlashCtl.reset.batch = none) ∧
    meets { FlashCtl.reset with prog := some pageProg, batch := some (batchOf .gathering) } ∧
    (meets { FlashCtl.reset with batch := some (b 255) } ∧ (b 255).state = .running ∧ (b 255).suspends < 256) ∧
    (meets { FlashCtl.reset with batch := some (b 256) } ∧ (b 256).state = .running ∧ 256 ≤ (b 256).suspends) := by decide +kernel

/-- APP's BOOT_READ from body address `a`, the Flash Controller as given. -/
def bootRuns (a : Nat) (delayed : Bool) (c : FlashCtl) : State :=
  { booting .open (.slot .s0) .current with ctl := c }.modPort .app fun p => { p with boot := some ⟨some a, 0, true, delayed⟩ }

/-- A boot read that suspended a program, one that waits, one past the body, and the window's last bytes. -/
theorem test_meets_boot_read_ends :
    let op : ReadOp := ⟨.boot .app, ⟨(SlotId.mk .app .s0).bodyAddr 299, 1⟩⟩
    (let s := bootRuns 299 true { FlashCtl.reset with reads := [op], prog := some { pageProg with suspended := true } }
     s.inbox = [] ∧ (s.port .app).boot = some ⟨some 299, 0, true, true⟩ ∧ (s.sup .app).served = .slot .s0 ∧ s.ctl.reads = [op] ∧
       s.ctl.wait = [] ∧ s.ctl.prog = some { pageProg with suspended := true } ∧ s.ctl.batch = none) ∧
    (let s := bootRuns 299 true { FlashCtl.reset with wait := [.read op, .program pageProg.op], prog := some pageProg }
     s.inbox = [] ∧ s.ctl.reads = [] ∧ Waiting.read op ∈ s.ctl.wait ∧ op.by_ = .boot .app) ∧
    (let s := bootRuns 300 false FlashCtl.reset
     s.inbox = [] ∧ s.ctl.reads = [] ∧ s.ctl.wait = [] ∧ manifestLength (s.slot ⟨.app, .s0⟩).mf ≤ 300) ∧
    16777215 + 1 ≤ 16777216 := by decide +kernel

/-! ### General requests -/

theorem test_meets_general_requests :
    State.takes (booting .open .rescue .rescue) .app .identify [] ∧ Fuses.blank.view.identity ≠ .programmed ∧
      owned.takes .app .masterState [1, 1] ∧ owned.takes .radio .masterState [2, 0] ∧ owned.takes .app .masterState [3, 2] ∧
      owned.takes .app .settingsRead [0] ∧ owned.takes .app .settingsRead [2] ∧ owned.takes .app .settingsRead [3] := by
  unfold State.takes; decide +kernel

theorem test_meets_announce :
    (owned.takes .app .announce [] ∧ owned.inbox = []) ∧
    (let s := booting .open (.slot .s0) .current
     s.takes .app .announce [] ∧ (s.sup .app).phase = .booting ∧ (s.sup .app).window = some .open ∧ (s.sup .app).bootFailures = 0 ∧
       (s.sup .app).servedState ≠ some .trial ∧ (s.sup .app).trial = none) ∧
    (let s := booting .open (.slot .s1) .trial
     s.takes .app .announce [] ∧ (s.sup .app).servedState = some .trial ∧ (s.sup .app).bootFailures = 0) ∧
    (let s := (booting .open (.slot .s0) .current).modSup .app fun r => { r with bootFailures := 1 }
     s.takes .app .announce [] ∧ s.inbox = [] ∧ (s.sup .app).bootFailures ≠ 0 ∧ s.storeTakes) := by
  unfold State.takes State.storeTakes; decide +kernel

def radioHeld (h : HoldCause) : State := owned.modSup .radio fun r => { r with phase := .held, hold := some h }

theorem test_meets_restart :
    (owned.takes .radio .restart [BitVec.ofNat 8 (Master.idx .line)] ∧ owned.inbox = []) ∧
    (let s := radioHeld .restarting
     s.takes .app .restart [BitVec.ofNat 8 (Master.idx .radio)] ∧ (s.sup .radio).phase = .held ∧
       (s.sup .radio).hold = some .restarting) ∧
    (let s := radioHeld .recovery
     s.takes .app .restart [BitVec.ofNat 8 (Master.idx .radio)] ∧ (s.sup .radio).hold = some .recovery ∧
       s.clock / 1000 < (s.sup .radio).assertedAt + 50) ∧
    (owned.takes .app .restart [BitVec.ofNat 8 (Master.idx .app)] ∧ (owned.sup .app).phase ≠ .held) ∧
    ∀ i : SlotId, ¬ ((owned.slot i).owner = some .app ∧ (owned.slot i).state.staging = true) := by
  unfold State.takes
  exact ⟨by decide +kernel, by decide +kernel, by decide +kernel, by decide +kernel, all_slots _ (by decide +kernel)⟩

theorem test_meets_settings_write :
    owned.takes .app .settingsWrite Settings.default.bytes ∧ owned.inbox = [] ∧ owned.storeTakes ∧
      (Settings.ofBytes Settings.default.bytes).inRange = true ∧
      (Settings.ofBytes (List.replicate 23 0)).inRange = false ∧ noGrants.takes .app .settingsWrite (List.replicate 23 0) ∧
      noGrants.granted .app = false ∧ (phaseOf .manufacture).takes .app .settingsWrite Settings.default.bytes := by
  unfold State.takes State.storeTakes; decide +kernel

def trialOf (good errors : Nat) : TrialWindow := ⟨0, good, errors, [1, 2, 3, 4], 30000, 1000, 30000, 2⟩

/-- A check exactly at the minimum, and one a millisecond before it. -/
theorem test_meets_trial_check :
    (owned.takes .app .trialCheck [1, 2, 3, 4] ∧ (owned.sup .app).trial = none) ∧
    (let s := { owned.modSup .app fun r => { r with trial := some (trialOf 1 0) } with clock := 1000000 }
     s.takes .app .trialCheck [1, 2, 3, 4] ∧ s.inbox = [] ∧ (s.sup .app).trial = some (trialOf 1 0) ∧
       (trialOf 1 0).min ≤ s.clock / 1000 - (trialOf 1 0).last ∧ [1, 2, 3, 4] = (trialOf 1 0).token ∧ (trialOf 1 0).good < 2) ∧
    (let s := { owned.modSup .app fun r => { r with trial := some (trialOf 1 0) } with clock := 999999 }
     s.takes .app .trialCheck [1, 2, 3, 4] ∧ ¬ (trialOf 1 0).min ≤ s.clock / 1000 - (trialOf 1 0).last ∧
       (trialOf 1 0).errors + 1 < (trialOf 1 0).limit) := by
  unfold State.takes; decide +kernel

/-! ### Slots -/

theorem test_meets_stage_begin :
    let p := fun (m : Master) (mf : Bytes) => [BitVec.ofNat 8 m.idx, 0] ++ mf
    let good := mfOf [1, 0, 0, 0, 0, 0] 300
    (owned.takes .radio .stageBegin (p .app good) ∧ owned.authority .radio .app = false) ∧
    (owned.takes .app .stageBegin (p .app good) ∧ owned.inbox = [] ∧ owned.authority .app .app = true ∧
      owned.commitInProgress = false ∧ owned.session .app = none ∧ owned.pendingSlot .app = none ∧
      owned.stageReserved .app = false ∧ owned.chooseSlot .app false = .inl .s1 ∧ owned.manifestFailure .app good = none ∧
      owned.takes .app .stageBegin (p .app (mfOf [1, 1, 0, 0, 0, 0] 300)) ∧
      owned.manifestFailure .app (mfOf [1, 1, 0, 0, 0, 0] 300) = some .wrongTarget) ∧
    ((committing owned).takes .app .stageBegin (p .app good) ∧ (committing owned).commitInProgress = true) ∧
    ((session .loading 0).takes .app .stageBegin (p .app good) ∧ ((session .loading 0).session .app).isSome = true) := by
  unfold State.takes; decide +kernel

/-- Data that reach the body's end, and data one byte past it. -/
theorem test_meets_stage_data :
    let s := session .loading 296
    let i : SlotId := ⟨.app, .s1⟩
    let p := fun (o : Nat) (n : Nat) => le 4 o ++ List.replicate n 0
    (owned.takes .app .stageData (p 0 1) ∧ owned.loadingSession .app = none) ∧
    (s.takes .app .stageData (p 296 4) ∧ s.inbox = [] ∧ s.loadingSession .app = some i ∧
      leNat (slice 0 4 (p 296 4)) = (s.slot i).received ∧ s.takes .app .stageData (p 296 0) ∧
      (p 296 0).drop 4 = [] ∧ 296 + 4 ≤ manifestLength (s.slot i).mf ∧
      pagesOf 8 (i.bodyAddr 296) (List.replicate 4 0) = [(i.bodyAddr 296, List.replicate 4 0)] ∧ s.image.pages = [] ∧
      s.ctl.touchesRetired ⟨i.bodyAddr 296, 4⟩ = false ∧ s.ctl.reads = [] ∧ s.ctl.prog = none ∧ s.ctl.batch = none ∧
      s.ctl.outstanding = []) ∧
    (s.takes .app .stageData (p 0 1) ∧ leNat (slice 0 4 (p 0 1)) ≠ (s.slot i).received) ∧
    (s.takes .app .stageData (p 296 5) ∧ manifestLength (s.slot i).mf < 296 + 5) ∧
    (let t : State := { s with image := { s.image with pages := [⟨⟨.radio, 0⟩, i, 0, [0], true, 1⟩] } }
     t.takes .app .stageData (p 296 4) ∧ t.loadingSession .app = some i ∧ t.image.pages ≠ []) := by
  unfold State.takes; decide +kernel

theorem test_meets_stage_end :
    let i : SlotId := ⟨.app, .s1⟩
    (owned.takes .app .stageEnd [] ∧ owned.loadingSession .app = none) ∧
    (let s := session .loading 299
     s.takes .app .stageEnd [] ∧ s.loadingSession .app = some i ∧ (s.slot i).received ≠ manifestLength (s.slot i).mf) ∧
    (let s := session .loading 300
     s.takes .app .stageEnd [] ∧ s.inbox = [] ∧ s.loadingSession .app = some i ∧
       (s.slot i).received = manifestLength (s.slot i).mf ∧ s.image.reads = [] ∧ s.image.checks = [] ∧ s.ctl.reads = [] ∧
       s.ctl.prog = none ∧ s.ctl.batch = none ∧ s.ctl.outstanding = []) := by
  unfold State.takes; decide +kernel

theorem test_meets_stage_abort :
    let i : SlotId := ⟨.app, .s1⟩
    let p := [BitVec.ofNat 8 (Master.idx .app)]
    (owned.takes .radio .stageAbort p ∧ owned.inbox = [] ∧ owned.storeTakes ∧ owned.mayAbort .radio .app = false) ∧
    (owned.takes .app .stageAbort p ∧ owned.rescueBars .app .app = false ∧ owned.mayAbort .app .app = true ∧
      owned.pendingSlot .app = none) ∧
    (let s := withSlot1 .app (entry .ready)
     s.takes .app .stageAbort p ∧ s.storeTakes ∧ s.mayAbort .app .app = true ∧ s.pendingSlot .app = some i ∧
       s.commitHolds .app = false ∧ (s.slot i).state = .ready ∧ (committing s).takes .app .stageAbort p ∧
       (committing s).commitHolds .app = true ∧ (committing owned).commitHolds .app = true ∧
       (committing owned).pendingSlot .app = none) ∧
    ((withSlot1 .app (entry .trial)).pendingSlot .app = some i ∧ ((withSlot1 .app (entry .trial)).slot i).state = .trial) ∧
    (let s := session .loading 0
     s.takes .app .stageAbort p ∧ s.storeTakes ∧ s.mayAbort .app .app = true ∧ s.pendingSlot .app = some i ∧
       s.commitHolds .app = false ∧ (s.slot i).state = .loading ∧ s.image.pages = [] ∧
       (∀ k ∈ Master.all, k ≠ .app → (s.port k).work ≠ .stageData i)) := by
  unfold State.takes State.storeTakes
  exact ⟨by decide +kernel, by decide +kernel, by decide +kernel, by decide +kernel, by decide +kernel⟩

theorem test_meets_slot_query_and_erase :
    let i : SlotId := ⟨.app, .s1⟩
    let p := [BitVec.ofNat 8 i.master.idx, BitVec.ofNat 8 i.slot.idx]
    (owned.takes .app .slotQuery [3] ∧ owned.takes .radio .slotQuery [1] ∧ owned.takes .radio .slotQuery [2]) ∧
    (owned.takes .radio .slotErase p ∧ owned.authority .radio .app = false) ∧
    ((committing owned).takes .app .slotErase p ∧ owned.authority .app .app = true ∧ (committing owned).commitInProgress = true) ∧
    (owned.takes .app .slotErase p ∧ owned.commitInProgress = false ∧ (owned.slot i).state = .blank) ∧
    (let s := withSlot1 .app (entry .failed)
     s.takes .app .slotErase p ∧ s.inbox = [] ∧ (s.slot i).state = .failed ∧ (s.slot i).erasePending = false ∧
       s.slotRetired i = false ∧ s.ctl.outstanding = [] ∧ s.ctl.batch = none ∧
       State.slotRetired { s with ctl := { s.ctl with retired := [⟨.image, 23⟩] } } i = true) := by
  unfold State.takes; decide +kernel

theorem test_meets_activate :
    let i : SlotId := ⟨.app, .s1⟩
    let p := fun (k : Byte) => [BitVec.ofNat 8 (Master.idx .app), k]
    (owned.takes .radio .activate (p 0) ∧ owned.authority .radio .app = false) ∧
    (owned.takes .app .activate (p 1) ∧ owned.authority .app .app = true ∧ owned.commitInProgress = false ∧
      owned.readySlot .app = none) ∧
    ((committing owned).takes .app .activate (p 0) ∧ (committing owned).commitInProgress = true) ∧
    (let s := withSlot1 .app (entry .ready)
     s.takes .app .activate (p 1) ∧ s.inbox = [] ∧ s.readySlot .app = some i ∧ (s.slot i).tryMark = false ∧ s.storeTakes) ∧
    (let s := withSlot1 .app { entry .ready with tryMark := true }
     s.takes .app .activate (p 0) ∧ s.readySlot .app = some i ∧ (s.slot i).tryMark = true ∧
       (s.sup .app).hold ≠ some .recovery) := by
  unfold State.takes State.storeTakes; decide +kernel

theorem test_meets_commit_start_and_install :
    let s := withSlot1 .app (entry .ready) (phaseOf .manufacture)
    let q : CommitReq := ⟨.app, .s1, manifestDigest (entry .ready).mf, .install, s.nextReq .app⟩
    let t : State := { s with image := { s.image with waitingCommits := [q] } }
    (t.inbox = [] ∧ t.storeTakes ∧ t.image.commit = none ∧ t.image.journal = none ∧ t.image.waitingCommits = q :: [] ∧
      t.commitTest q = true) ∧
    (s.inbox = [] ∧ s.storeTakes ∧ s.takes .app .activate [BitVec.ofNat 8 q.master.idx, 2] ∧ s.authority .app q.master = true ∧
      s.image.waitingCommits = [] ∧ s.creds.lifecycle = .manufacture ∧ s.readySlot q.master = some q.sid ∧ s.commitTest q = true) ∧
    (owned.takes .app .activate [BitVec.ofNat 8 q.master.idx, 2] ∧ owned.creds.lifecycle ≠ .manufacture) ∧
    ((phaseOf .manufacture).takes .app .activate [BitVec.ofNat 8 q.master.idx, 2] ∧ (phaseOf .manufacture).readySlot q.master = none) := by
  unfold State.takes State.storeTakes; decide +kernel

/-! ### Keys -/

def newKeyBytes (cls kind usages users : Byte) : Bytes :=
  [cls, kind, usages, users, 0, 0] ++ List.replicate 32 0 ++ [0, 0] ++ [66]

abbrev keyCreateMeets (s : State) (p : Bytes) (n : NewKey) : Prop :=
  s.takes .app .keyCreate p ∧ s.inbox = [] ∧ KeyClass.ofCode (byteAt 0 p) = some n.cls ∧
    KeyKind.ofCode (byteAt 1 p) = some n.kind ∧ n.usages = byteAt 2 p ∧ n.users = byteAt 3 p ∧
        Binding.ofCode (byteAt 4 p) (byteAt 5 p) (slice 6 32 p) = some n.binding ∧ leNat (slice 38 2 p) = 0 ∧ n.limit = none ∧
        n.label = p.drop 40 ∧ s.keyBarred .app factoryOnly n.cls = false ∧ s.classAllowed n.cls = true ∧
        mayMake .app n.users = true ∧ keyForm n.kind n.usages n.users n.binding n.label = true

theorem test_meets_key_create :
    let k := fun (c : KeyClass) (d : KeyKind) (u : Byte) => NewKey.mk 3 c d u 7 .none [66] none
    keyCreateMeets owned (newKeyBytes 3 2 4 7) (k .volatile .secret 4) ∧ keyCreateMeets owned (newKeyBytes 2 2 4 7) (k .owner .secret 4) ∧
      keyCreateMeets (phaseOf .manufacture) (newKeyBytes 1 0 1 7) (k .factory .sign 1) ∧
      keyCreateMeets owned (newKeyBytes 3 1 2 7) (k .volatile .agree 2) ∧ owned.labelInUse [66] = false ∧
      owned.roomForKey .volatile = some 3 ∧ owned.roomForKey .owner = some 3 ∧ owned.storeTakes ∧
      (withKeys [{ key .secret 4 with label := [66] }]).labelInUse [66] = true ∧
      State.roomForKey { owned with keys := { owned.keys with
        holds := List.replicate 16 ⟨⟨.radio, 0⟩, 3, [67], true⟩ } } .volatile = none := by
  unfold keyCreateMeets State.takes State.storeTakes
  exact ⟨by decide +kernel, by decide +kernel, by decide +kernel, by decide +kernel,
    by decide +kernel, by decide +kernel, by decide +kernel, by decide +kernel, by decide +kernel⟩

theorem test_meets_key_destroy :
    let e := key .secret 4
    let o := { key .secret 4 with cls := KeyClass.owner }
    let meets := fun (s : State) (e : KeyEntry) =>
      s.takes .app .keyDestroy [BitVec.ofNat 8 e.handle, e.gen] ∧ s.inbox = [] ∧ 1 ≤ e.handle ∧ e.handle ≤ 48 ∧
        s.keyFound e.handle e.gen = some e ∧ mayMake .app e.users = true ∧ s.keyBarred .app factoryOnly e.cls = false ∧
        s.keyInUse e.handle e.gen = false ∧ s.keys.destroys = []
    (meets (withKeys [e]) e ∧ (withKeys [e]).mayDestroy .app e.cls = true) ∧
    (meets (withKeys [o]) o ∧ (withKeys [o]).mayDestroy .app o.cls = true ∧ (withKeys [o]).storeTakes) ∧
    (let d := { key .sign 1 with handle := 1, cls := KeyClass.device }
     meets (withKeys [d]) d ∧ (withKeys [d]).mayDestroy .app d.cls = false) := by
  unfold State.takes State.storeTakes; decide +kernel

/-- Handles 1 and 48. -/
theorem test_meets_key_info_find_public :
    owned.takes .app .keyInfo [BitVec.ofNat 8 1, 0] ∧ owned.takes .app .keyInfo [BitVec.ofNat 8 48, 0] ∧
      (withKeys [key .sign 0x21]).takes .radio .keyInfo [BitVec.ofNat 8 3, 0] ∧
      (withKeys [key .sign 0x21]).takes .radio .keyFind [65] ∧ owned.takes .app .keyPublic [BitVec.ofNat 8 48, 0] ∧
      owned.onRescue = false ∧ (withKeys [key .sign 0x21]).takes .radio .keyPublic [BitVec.ofNat 8 3, 0] := by
  unfold State.takes; decide +kernel

theorem test_meets_key_uses :
    let s := withKeys [{ key .secret 0x0C with limit := some 2 }]
    let b := BitVec.ofNat 8 3
    ((withKeys [key .sign 1]).takes .app .keySign ([b, 0] ++ List.replicate 32 0) ∧ (key .sign 1).allows .app .sign = true) ∧
    ((withKeys [key .agree 2]).takes .app .keyAgree ([b, 0] ++ List.replicate 64 0 ++ [0, 0]) ∧
      (key .agree 2).allows .app .agree = true) ∧
    (s.takes .app .keyMac ([b, 0] ++ List.replicate 1000 0) ∧ s.inbox = [] ∧ s.engine.queue = [] ∧
      (s.keyFound 3 0).bind (·.limit) = some 2 ∧ (s.keyFound 3 0).all (fun e => e.allows .app .mac) = true ∧
      s.keyAt 3 = s.keyFound 3 0 ∧ s.bindingMet .app .none = true) ∧
    (s.takes .app .derivePush ([b, 0] ++ List.replicate 64 0) ∧ s.keys.stackOf.get .app = [] ∧
      (s.keyFound 3 0).all (fun e => e.allows .app .derive && !e.allows .app .deriveStore) = true) ∧
    (owned.takes .app .keyMac [b, 0] ∧ owned.keyFound 3 0 = none ∧ (key .secret 8).allows .app .mac = false) := by
  unfold State.takes; decide +kernel

def storeBytes : Bytes := [3, 7, 4, 0, 0] ++ List.replicate 32 0 ++ [66]

theorem test_meets_derivations :
    (owned.takes .app .derivePop [] ∧ owned.keys.stackOf.get .app = []) ∧
    (let s := withStack [key .secret 0x1C]
     s.takes .app .derivePop [] ∧ s.keys.stackOf.get .app = [] ++ [⟨List.replicate 32 2, 3, 0, List.replicate 32 3⟩]) ∧
    (owned.takes .app .derivePush (0 :: 0 :: [65]) ∧ owned.inbox = []) ∧
    (let s := withStack [key .secret 0x1C]
     let k : NewKey := ⟨4, .volatile, .secret, 4, 7, .none, [66], none⟩
     s.takes .app .deriveStore storeBytes ∧ s.inbox = [] ∧ byteAt 0 storeBytes = 3 ∧ k.users = byteAt 1 storeBytes ∧
       k.usages = byteAt 2 storeBytes ∧
       Binding.ofCode (byteAt 3 storeBytes) (byteAt 4 storeBytes) (slice 5 32 storeBytes) = some k.binding ∧
       k.label = storeBytes.drop 37 ∧ mayMake .app k.users = true ∧ keyForm .secret k.usages k.users k.binding k.label = true ∧
       s.labelInUse k.label = false ∧ s.roomForKey .volatile = some k.handle ∧ s.keyFound 3 0 = some (key .secret 0x1C) ∧
       (key .secret 0x1C).allows .app .deriveStore = true ∧ s.bindingMet .app .none = true) ∧
    (owned.takes .app .deriveStore storeBytes) := by
  unfold State.takes; decide +kernel

/-! ### Measurements -/

theorem test_meets_measurements :
    let p := fun (c : Byte) => c :: List.replicate 32 0
    (owned.takes .app .extend (p 7) ∧ owned.takes .app .extend (p 8) ∧ owned.takes .app .extend (p 0) ∧ owned.inbox = [] ∧
      (owned.modMeas .app fun x => { x with locks := x.locks.set 7 true }).takes .app .extend (p 7) ∧
      (owned.modMeas .app fun x => { x with log := List.replicate 32 ⟨1, []⟩ }).takes .app .extend (p 1)) ∧
    (owned.takes .app .lockCell [7] ∧ owned.takes .app .lockCell [8]) ∧
    (owned.takes .radio .readCells [0] ∧ owned.takes .app .readCells [2] ∧ owned.takes .app .readCells [3]) ∧
    (owned.takes .app .readLog [1, 0] ∧ owned.takes .radio .readLog [1, 1]) ∧
    (let a := fun (b : Byte) => b :: 0 :: 0 :: 0 :: List.replicate 32 0
     let d := { key .sign 1 with handle := 1, cls := KeyClass.device }
     owned.takes .app .attest (a 0) ∧ owned.takes .app .attest (a 8) ∧ owned.takes .radio .attest (a 1) ∧
       owned.mayAttest .radio 1 = false ∧ owned.mayAttest .app 7 = true ∧ owned.keyFound 1 (owned.genOf 1) = none ∧
       (withKeys [d]).takes .app .attest (a 7) ∧ (withKeys [d]).keyFound 1 ((withKeys [d]).genOf 1) = some d ∧
       (withKeys [d]).meas.sequence < 4294967295 ∧
       State.takes { withKeys [d] with meas := { owned.meas with sequence := 4294967295 } } .app .attest (a 7)) := by
  unfold State.takes
  exact ⟨by decide +kernel, by decide +kernel, by decide +kernel, by decide +kernel, by decide +kernel⟩

/-! ### Credentials -/

/-- Secrets of 1 and 64 bytes, of none and 65. -/
theorem test_meets_claim_and_verify :
    (let s := phaseOf .unowned
     s.inbox = [] ∧ s.takes .app .claim (0 :: List.replicate 64 65) ∧ s.creds.wiping = false ∧
       s.credNamed (ascii "claim") = none ∧ s.freeCred = some 0) ∧
    (let p := fun (name secret : Bytes) => BitVec.ofNat 8 name.length :: (name ++ secret)
     let v := cred [65] (.verifier (List.replicate 16 0) (List.replicate 32 0))
     let late : State := { withCred { v with lockout := some 60 } with clock := 60000 }
     owned.takes .app .credVerify (p [65] []) ∧ owned.takes .app .credVerify (p [65] (List.replicate 65 0)) ∧
       owned.takes .app .credVerify (p [65] [1]) ∧ owned.credNamed [65] = none ∧
       (withCred v).takes .app .credVerify (p [65] (List.replicate 64 0)) ∧ (withCred v).credNamed [65] = some v ∧
       hasBit v.readers (Master.idx .app) = true ∧ v.lockout = none ∧
       (withCred { v with lockout := some 60 }).takes .app .credVerify (p [65] [1]) ∧ (withCred v).clock / 1000 < 60 ∧
       late.takes .app .credVerify (p [65] [1]) ∧ 60 ≤ late.clock / 1000 ∧ hasBit ({ v with readers := 2 }).readers (Master.idx .app) = false ∧
       (withCred (cred [65] (.secret [1]))).takes .app .credVerify (p [65] [1])) := by
  unfold State.takes; decide +kernel

theorem test_meets_cred_put_and_delete :
    let p := fun (k : Byte) => [CredClass.code .owner, k, 7, 0] ++ (BitVec.ofNat 8 1 :: ([65] ++ [1, 2]))
    (owned.takes .app .credPut (p 1) ∧ owned.inbox = [] ∧ owned.credAllowed .app .owner = true ∧
      credForm [65] .owner true 7 false [1, 2] = true ∧ credForm [65] .owner false 7 false [1, 2] = true ∧
      credForm [65] .owner true 0 false [1, 2] = false ∧ owned.credNamed [65] = none ∧ owned.creds.holds = [] ∧
      owned.freeCred = some 0 ∧ owned.storeTakes ∧ owned.takes .app .credPut (p 0)) ∧
    (noGrants.takes .app .credPut (p 1) ∧ noGrants.credAllowed .app .owner = false) ∧
    (let s := withCred (cred [65] (.secret [1]))
     s.takes .app .credDelete [65] ∧ s.credNamed [65] = some (cred [65] (.secret [1])) ∧ [65] ≠ ascii "owner" ∧
       s.credAllowed .app .owner = true ∧ s.storeTakes ∧ s.takes .app .credDelete [66] ∧ s.credNamed [66] = none) ∧
    ((withCred (cred (ascii "owner") (.secret [1]))).takes .app .credDelete (ascii "owner") ∧
      State.credBarred (withCred (cred (ascii "owner") (.secret [1]))) .app .owner = false) ∧
    (let s := { (phaseOf .manufacture).modSup .app fun r => { r with served := .rescue, servedState := some .rescue } with
       creds := { (phaseOf .manufacture).creds with table := [cred [65] (.secret [1])] } }
     s.inbox = [] ∧ s.takes .app .credPut (p 1) ∧ s.credBarred .app .owner = true ∧ s.takes .app .credDelete [65] ∧
       s.credNamed [65] = some (cred [65] (.secret [1]))) ∧
    ((withCred (cred [65] (.secret [1]))).takes .radio .credDelete [65] ∧
      State.credBarred (withCred (cred [65] (.secret [1]))) .radio .owner = false ∧
      { withCred (cred [65] (.secret [1])) with creds := { noGrants.creds with table := [cred [65] (.secret [1])] } }.credAllowed
        .radio .owner = false) := by
  unfold State.takes State.storeTakes
  exact ⟨by decide +kernel, by decide +kernel, by decide +kernel, by decide +kernel, by decide +kernel, by decide +kernel⟩

theorem test_meets_cred_reads :
    let s := withCred { cred [65] (.secret [1]) with grantRequired := true }
    s.takes .app .credGet [65] ∧ s.takes .app .credGet [66] ∧ (s.sup .app).phase = .running ∧ (s.sup .app).served = .slot .s0 ∧
      (s.slot ⟨.app, .s0⟩).state = .current ∧ s.creds.grants.get .app ≠ none ∧ s.takes .radio .credList [] ∧
      s.takes .app .credList [] ∧ s.takes .app .grantClose [] := by
  unfold State.takes; decide +kernel

/-! ### Fuses -/

/-- A part in MANUFACTURE with BLANK rows, on its rescue image. -/
def blankPart : State :=
  { phaseOf .manufacture with bank := { FuseBank.reset with reading := false }, fuses := .blank }

theorem test_meets_manufacture :
    let s := blankPart
    let t := phaseOf .manufacture
    (s.inbox = [] ∧ s.takes .app .fuseIdentity (le 8 1) ∧ s.bank.view.identity = .blank ∧ leNat (le 8 1) ≠ 0 ∧
      s.bank.active = none ∧ s.bank.reading = false ∧ s.bank.jobs = [] ∧ s.takes .app .fuseIdentity (le 8 0) ∧
      t.takes .app .fuseIdentity (le 8 1) ∧ t.bank.view.identity ≠ .blank) ∧
    (s.takes .app .fuseSigner (3 :: List.replicate 32 1) ∧ (3 : Byte).toNat ≤ 3 ∧ s.bank.view.rowBlank 3 = true ∧
      ((FuseJob.signer 3 (rowBits (List.replicate 32 1))).fuses s.bank.view).dropWhile s.fuses.blown ≠ [] ∧
      s.takes .app .fuseSigner (4 :: List.replicate 32 1) ∧ t.takes .app .fuseSigner (3 :: List.replicate 32 1) ∧
      t.bank.view.rowBlank 3 = false) ∧
    (t.takes .app .closeManufacture [] ∧ t.commitInProgress = false ∧ t.closeReady = true ∧
      (FuseJob.fuses t.bank.view .close).dropWhile t.fuses.blown ≠ [] ∧ s.takes .app .closeManufacture [] ∧ s.closeReady = false ∧
      (committing t).takes .app .closeManufacture [] ∧ (committing t).commitInProgress = true) := by
  unfold State.takes
  exact ⟨by decide +kernel, by decide +kernel, by decide +kernel⟩

/-- The identity job has a fuse to blow, whatever its seed. -/
theorem test_meets_identity_job (seed : BitVec 256) :
    ((FuseJob.identity 1 seed).fuses FuseView.blank).dropWhile Fuses.blank.blown ≠ [] := by
  have h : ((List.range 64).filter fun i => BitVec.getLsbD (1 : BitVec 64) i).map FuseId.serial = [FuseId.serial 0] := by
    decide +kernel
  simp only [FuseJob.fuses, h, List.cons_append]
  rw [List.dropWhile_cons_of_neg (by decide +kernel)]
  exact List.cons_ne_nil _ _

theorem test_meets_fuse_ends :
    let b := fun (a : ActiveFuse) => ({ owned with bank := { owned.bank with active := some a } } : State)
    let a : ActiveFuse := ⟨.revoke 3, .commit, [.revoke 0, .revoke 1], 0, false, false⟩
    ((b a).inbox = [] ∧ (b a).bank.active = some a ∧ ((b a).fuses.blow (.revoke 0)).blown (.revoke 1) = false ∧ a.attempts < 2) ∧
    (let a := { a with attempts := 2 }
     (b a).bank.active = some a ∧ a.job = .revoke 3 ∧ (b a).fuses.blown (.revoke 1) = false) ∧
    (let part := fun (closed seen : Bool) => ({ State.reset with
       fuses := { Fuses.blank with written := true, closed := closed }, bank := { FuseBank.reset with seen := seen } } : State)
     let meets := fun (s : State) => s.inbox = [] ∧ s.bank.reading = true ∧ s.fuses.written = true
     meets (part false false) ∧ meets (part true false) ∧ meets (part true true) ∧
       ((part true false).fuses.closed = true ∧ (part true false).bank.seen = false)) ∧
    (State.reset.inbox = [] ∧ State.reset.bank.reading = true ∧ State.reset.fuses.written = false ∧
      ∀ m ∈ Master.all, (State.reset.sup m).phase = .held ∧ (State.reset.sup m).holdDeadline = some 50 ∧
        State.reset.clock / 1000 < 50) := by decide +kernel

/-! ### Deadlines -/

theorem test_meets_batches :
    (let s := withCtl { FlashCtl.reset with batch := some (batchOf .gathering) }
     s.inbox = [] ∧ s.ctl.reads = [] ∧ s.ctl.prog = none ∧ s.ctl.batch = some (batchOf .gathering) ∧ s.ctl.wait = [] ∧
       (batchOf .gathering).closes ≤ ({ s with clock := 200 } : State).clock) ∧
    (let s := withCtl { FlashCtl.reset with wait := [.program pageProg.op] }
     s.ctl.batch = none ∧ s.ctl.wait = [.program pageProg.op] ∧ s.ctl.outstanding = [] ∧ s.ctl.prog = none) := by decide +kernel

/-- Every master HELD, its hold ending at 50 ms. -/
def atDeadline (slots : SlotPair) : State :=
  { owned with
    clock := 50000
    sups := .const { MasterRec.reset with holdDeadline := some 50 }
    image := { owned.image with slots := .const slots } }

theorem test_meets_boot_choice :
    (let s := atDeadline ⟨.blank, .blank⟩
     s.inbox = [] ∧ s.choiceReady .app = true ∧ (s.sup .app).phase = .held ∧ (s.port .app).boot = none ∧ s.ctl.reads = [] ∧
       s.ctl.wait = [] ∧ s.currentSlot .app = none ∧ s.choiceReady .radio = true ∧ s.currentSlot .radio = none ∧
       (s.slot ⟨.app, .s0⟩).state = .blank ∧ (s.slot ⟨.app, .s1⟩).state = .blank) ∧
    (let s := atDeadline ⟨cur, .blank⟩
     s.choiceReady .app = true ∧ s.currentSlot .app = some ⟨.app, .s0⟩ ∧ s.ineligible ⟨.app, .s0⟩ = none ∧
       (s.slot ⟨.app, .s0⟩).checked = true) ∧
    (let s : State := { atDeadline ⟨.blank, .blank⟩ with clock := 49999 }
     (s.sup .app).holdDeadline = some 50 ∧ (s.untilMs 50).choiceReady .app = true ∧ ((s.untilMs 50).sup .app).phase = .held) := by
  decide +kernel

theorem test_meets_contact_and_trial_deadlines :
    let s := (booting .open (.slot .s0) .current).modSup .app fun r => { r with contact := some 20, bootFailures := 14 }
    (s.inbox = [] ∧ (s.sup .app).contact = some 20 ∧ (s.sup .app).phase ≠ .held ∧ s.storeTakes ∧
      (s.sup .app).servedState = some .current ∧ (s.sup .app).bootFailures < 15) ∧
    (let t := (booting .open .rescue .rescue).modSup .app fun r => { r with contact := some 20 }
     t.inbox = [] ∧ (t.sup .app).contact = some 20 ∧ (t.sup .app).phase ≠ .held ∧ (t.sup .app).servedState ≠ some .current) ∧
    (∀ i : SlotId, ¬ ((s.slot i).owner = some .app ∧ (s.slot i).state.staging = true)) ∧
    (let t := owned.modSup .app fun r => { r with trial := some (trialOf 1 0) }
     (t.sup .app).trial = some (trialOf 1 0) ∧ (trialOf 1 0).errors + 1 < (trialOf 1 0).limit) := by
  unfold State.storeTakes
  exact ⟨by decide +kernel, by decide +kernel, all_slots _ (by decide +kernel), by decide +kernel⟩

theorem test_meets_owner_deadlines :
    ((withCred { cred [65] (.verifier [] []) with lockout := some 60 }).credAt 0).bind (·.lockout) = some 60 ∧
      owned.creds.grants.get .app = some 1000 ∧ owned.creds.button = .released ∧
      ({ owned.creds with button := ButtonState.holding } : CredMgr).button = .holding ∧
      ({ owned with stat := ⟨2, true, 0⟩ } : State).stat.priority = 2 ∧
      ({ owned with stat := ⟨3, true, 0⟩ } : State).stat.priority = 3 := by decide +kernel

theorem test_meets_wipes :
    (owned.inbox = [] ∧ owned.takes .app .relinquish [] ∧ owned.creds.grants.get .app ≠ none ∧ owned.creds.wipe = .none ∧
      owned.storeTakes) ∧
    (noGrants.takes .app .relinquish [] ∧ noGrants.creds.grants.get .app = none) ∧
    (let s : State := { owned with creds := { owned.creds with wipe := .removal } }
     s.takes .app .relinquish [] ∧ s.creds.grants.get .app ≠ none ∧ s.creds.wipe ≠ .none) ∧
    (let s : State := { owned with creds := { owned.creds with buttonDeadline := some 10000 } }
     s.creds.buttonDeadline = some 10000 ∧ s.creds.lifecycle = .owned ∧ s.creds.wiping = false ∧ s.storeTakes) ∧
    (phaseOf .unowned).creds.lifecycle ≠ .owned := by
  unfold State.takes State.storeTakes; decide +kernel

/-! ### Ends of operations -/

/-- APP's STAGE-DATA of two bytes in progress. -/
def pageState (active : Nat) : State :=
  let s := (session .loading 298).modPort .app fun p => { p with req := .working, no := 1, work := .stageData ⟨.app, .s1⟩ }
  { s with
    ctl := { FlashCtl.reset with prog := some { pageProg with active := active } }
    image := { s.image with pages := [⟨⟨.app, 1⟩, ⟨.app, .s1⟩, 256, [0, 0], true, 2⟩] } }

/-- A program that ends just before its time limit, and one at it. -/
theorem test_meets_program_ends :
    let pg : StagePage := ⟨⟨.app, 1⟩, ⟨.app, .s1⟩, 256, [0, 0], true, 2⟩
    let meets := fun (s : State) (p : ActiveProg) =>
      s.inbox = [] ∧ s.ctl.prog = some p ∧ p.suspended = false ∧ p.op.requester = .image ∧ s.ctl.reads = [] ∧ s.ctl.wait = [] ∧
        s.ctl.batch = none ∧ s.image.pages = [pg] ∧ pg.last = true ∧ (s.slot pg.sid).state = .loading ∧
        (s.slot pg.sid).owner = some pg.req.port ∧ (s.port pg.req.port).req = .working ∧ (s.port pg.req.port).no = pg.req.no ∧
        (s.port pg.req.port).work = .stageData pg.sid
    (meets (pageState 1999) { pageProg with active := 1999 } ∧
      programGood (pageState 1999).flash pageProg.op.addr pageProg.op.data [] = true) ∧
    (meets (pageState 2000) { pageProg with active := 2000 } ∧ (pageState 2000).storeTakes) := by
  unfold State.storeTakes; decide +kernel

/-- The record that APP's SETTINGS_WRITE replaces. -/
def oldSettings : MirrorEntry := ⟨.settingsOwner, 0, 1, 16, 4, 64, true, true⟩

/-- APP's SETTINGS_WRITE, begun, its record at offset 16 of store sector 2. -/
def settingsStep (step : WriteStep) (pages : List (Nat × Bytes)) (old : Option MirrorEntry) : ActiveWrite :=
  { write := ⟨.settingsOwner, 0, Settings.default.bytes, false, .settings true Settings.default ⟨.app, 1⟩⟩, seq := 5
    tag := List.replicate 16 9, step := step, sector := 2, offset := 16, pages := pages, attempt := 1, old := old }

/-- That write with a program of two bytes in progress. -/
def storing (a : ActiveWrite) (active : Nat) : State :=
  { owned.modPort .app fun p => { p with req := .working, no := 1 } with
    ctl := { FlashCtl.reset with prog := some ⟨⟨.store, storeAddr 2 16, [1, 0]⟩, active, false⟩ }
    store := { owned.store with
      mirror := [oldSettings], cur := some a, progs := [⟨storeAddr 2 16, [1, 0], .write⟩]
      sectors := List.replicate 64 ⟨.open, some 1, some 1, 200, 100⟩ } }

/-- A write of the Record Store in each of its steps, its last page and a page before it, up to the program's time limit. -/
theorem test_meets_store_program_ends :
    let pages := [(storeAddr 2 32, [1, 2])]
    let meets := fun (a : ActiveWrite) (active : Nat) =>
      let s := storing a active
      s.inbox = [] ∧ s.ctl.prog = some ⟨⟨.store, storeAddr 2 16, [1, 0]⟩, active, false⟩ ∧ s.ctl.reads = [] ∧ s.ctl.wait = [] ∧
        s.ctl.batch = none ∧ s.store.cur = some a ∧ s.store.progs = [⟨storeAddr 2 16, [1, 0], .write⟩] ∧ s.store.mount = none ∧
        s.ctl.outstanding = [] ∧ (∀ n ∈ [1, 2, 16, 32], s.ctl.touchesRetired ⟨storeAddr a.sector a.offset, n⟩ = false)
    let good := programGood (storing (settingsStep .header [] none) 1999).flash (storeAddr 2 16) [1, 0] []
    good = true ∧ meets (settingsStep .header [] none) 1999 ∧
      pagesOf 8 (storeAddr 2 16 + 16) (padded (settingsStep .header [] none).write.payload) ≠ [] ∧
      meets (settingsStep .payload pages none) 1999 ∧ meets (settingsStep .payload [] none) 1999 ∧
      meets (settingsStep .tagProgram [] none) 1999 ∧ meets (settingsStep .payload pages none) 2000 ∧
    (let s := storing (settingsStep .valid [] none) 1999
     meets (settingsStep .valid [] none) 1999 ∧ s.creds.lifecycle = .owned ∧ s.store.retry = [] ∧ (s.port .app).req = .working ∧
       (s.port .app).no = 1 ∧ s.mirrorAt .settingsOwner 0 = some oldSettings) ∧
    (let a := settingsStep .supersede [] (some oldSettings)
     let s := fun (x : Reclaim) => { storing a 1999 with store := { (storing a 1999).store with reclaim := some x } }
     let meets := fun (x : Reclaim) =>
       (s x).inbox = [] ∧ (s x).store.cur = some a ∧ a.write.type ≠ .slot ∧ (s x).store.writes = [] ∧ (s x).store.retry = [] ∧
         (s x).store.reclaim = some x ∧ (s x).creds.wipe ≠ .removal ∧ storeSector x.victim ∉ (s x).ctl.retired
     meets ⟨3, 16, .marking, false⟩ ∧ meets ⟨1, 16, .settling, false⟩) := by
  exact ⟨by decide +kernel, by decide +kernel, by decide +kernel, by decide +kernel, by decide +kernel, by decide +kernel,
    by decide +kernel, by decide +kernel, by decide +kernel⟩

/-- A batch of one, the last sector but one of an image erase task. -/
def lastMember (active failures : Nat) : State :=
  { owned with
    ctl := { FlashCtl.reset with
      batch := some ⟨.running, 200, [⟨.image, 3⟩], [], 0, active⟩, next := [⟨.image, 5⟩]
      outstanding := [⟨⟨.image, 3⟩, [.image 0], failures⟩] }
    image := { owned.image with
      tasks := [⟨0, ⟨.app, .s1⟩, ⟨.app, 1⟩, false, false, [⟨.image, 3⟩, ⟨.image, 4⟩], false⟩] } }

/-- A member that is not the last of its batch; a last one that reads erased just before its limit, and at its limit for the
first and the second time. -/
theorem test_meets_erase_ends :
    (let s := withCtl { FlashCtl.reset with batch := some (batchOf .running) }
     s.inbox = [] ∧ s.ctl.batch = some (batchOf .running) ∧ (batchOf .running).members = ⟨.image, 3⟩ :: ⟨.image, 4⟩ :: [] ∧
       s.ctl.prog = none ∧ ({ batchOf .running with active := 1999999 } : Batch).active < 2000000) ∧
    (let meets := fun (s : State) (failures : Nat) =>
       s.inbox = [] ∧ s.ctl.reads = [] ∧ s.ctl.wait = [] ∧ s.ctl.prog = none ∧ s.store.mount = none ∧
         s.ctl.outstanding = [⟨⟨.image, 3⟩, [.image 0], failures⟩] ∧ s.store.cond = .mounted ∧ s.storeTakes
     meets (lastMember 1999999 0) 0 ∧ sectorErased (lastMember 1999999 0).flash ⟨.image, 3⟩ = true ∧ meets (lastMember 2000000 0) 0 ∧
       meets (lastMember 2000000 1) 1 ∧ [Sector.mk .image 3, ⟨.image, 4⟩].erase ⟨.image, 3⟩ ≠ []) := by
  unfold State.storeTakes; decide +kernel

theorem test_meets_crypto_job_end :
    let j := fun (op : CryptoOp) (o : Bool) => Job.mk (.port .app) op .none (.request ⟨.app, 1⟩) true o [] none
    let s := fun (j : Job) (w : Work) =>
      (({ owned with engine := ⟨[j], []⟩ } : State).modPort .app fun p => { p with req := .working, no := 1, work := w })
    let meets := fun (j : Job) (s : State) =>
      s.inbox = [] ∧ s.engine = ⟨[j], []⟩ ∧ j.started = true ∧ s.store.mount = none ∧ s.keys.table = [] ∧
        j.for_ = .request ⟨.app, 1⟩ ∧ (s.port .app).req = .working ∧ (s.port .app).no = 1
    meets (j (.mac [1] false) false) (s (j (.mac [1] false) false) .mac) ∧
      meets (j (.digest none [1] true) false) (s (j (.digest none [1] true) false) (.extend 7 [1])) ∧
      meets (j (.mac [1] false) true) (s (j (.mac [1] false) true) .none) := by decide +kernel

theorem test_meets_internal_read_end :
    let op := fun (r : Requester) => ReadOp.mk (.internal r) ⟨786432, 300⟩
    (let s : State := { session .checking 0 with
       ctl := { FlashCtl.reset with reads := [op .image] }
       image := { (session .checking 0).image with reads := [0], checks := [⟨0, ⟨.app, .s1⟩, ⟨.app, 1⟩, 0, none⟩] } }
     s.inbox = [] ∧ s.ctl.reads = [op .image] ∧ s.ctl.wait = [] ∧ s.ctl.prog = none ∧ s.ctl.batch = none ∧ s.image.reads = [0] ∧
       s.image.checks = [⟨0, ⟨.app, .s1⟩, ⟨.app, 1⟩, 0, none⟩]) ∧
    (let s : State := { (held .restarting).modSup .app fun r => { r with read := some 0, work := .checking 0 .s0 cur.mf 0 none } with
       ctl := { FlashCtl.reset with reads := [op (.supervisor .app)] } }
     s.inbox = [] ∧ s.ctl.reads = [op (.supervisor .app)] ∧ (s.sup .app).read = some 0 ∧
       (s.sup .app).work = .checking 0 .s0 cur.mf 0 none) := by decide +kernel

/-! ### What every command and every step keeps -/

theorem test_meets_invariants :
    State.reset.ok ∧ State.reset.statRight ∧ Runs State.reset ∧ Instr.resets (.statusRead .app) = false ∧
      Instr.endsProgram (.programEnd []) = true ∧ Instr.endsErase (.sectorEraseEnd []) = true ∧
      Instr.endsAttempt (.fuseAttemptEnd true) = true ∧ (Fuses.blank.blow .closed).blown .closed = true ∧
      exec (.statusRead .app) State.reset = .next State.reset := by
  unfold State.ok State.statRight Runs
  exact ⟨by decide +kernel, by decide +kernel, ⟨_, rfl⟩, rfl, rfl, rfl, rfl, rfl, rfl⟩

/-! ### The Record Store's choices of what and when to write -/

/-- A reclaim of sector 5 whose lowest current record lies at offset 64. -/
def reclaiming (progs : List StoreProg) : State :=
  { owned with
    store := { owned.store with
      progs := progs, reclaim := some ⟨5, 16, .reading, false⟩
      mirror := [⟨.epoch, 0, 5, 96, 9, 48, true, false⟩, ⟨.lifecycle, 0, 5, 64, 8, 48, true, false⟩, ⟨.cred, 1, 6, 16, 7, 48, true, true⟩] } }

theorem test_a_hidden_current_record_is_copied_before_the_erase :
    ((reclaiming []).reclaimReadEnded [0xAB, 0xFA]).store.reclaim = some ⟨5, 64, .reading, false⟩ := by decide +kernel

theorem test_an_erase_waits_for_the_victims_programs :
    let r : Reclaim := ⟨5, 16, .reading, false⟩
    ((reclaiming [⟨storeAddr 5 17, [recSuperseded], .write⟩]).eraseVictim r).store.reclaim = some { r with step := .settling } ∧
      ((reclaiming [⟨storeAddr 6 17, [recSuperseded], .write⟩]).eraseVictim r).store.reclaim = some { r with step := .erasing } := by
  decide +kernel

theorem test_a_put_of_a_new_name_is_not_judged_against_a_delete :
    let r : Req := ⟨.app, 1⟩
    let s : State := { owned with creds := { owned.creds with deleted := [r] } }
    let e : CredEntry := ⟨3, ascii "key", .owner, 1, false, .secret [1], 1, 0, none⟩
    (s.putCred r e true).store.cur.isSome = true ∧ (s.putCred r e false).store.cur.isSome = false := by decide +kernel

theorem test_a_replacing_put_takes_its_serial_as_it_is_begun :
    let old : CredEntry := ⟨3, ascii "key", .owner, 1, false, .secret [1], 5, 2, none⟩
    let s : State := { owned with creds := { owned.creds with table := [old] } }
    let e : CredEntry := { old with value := .secret [2], serial := 9, failures := 0 }
    s.atBegin ⟨.cred, 3, e.payload, false, .credPut ⟨.app, 1⟩ e false⟩ =
      ⟨.cred, 3, ({ e with serial := 6, failures := 2 } : CredEntry).payload, false,
        .credPut ⟨.app, 1⟩ { e with serial := 6, failures := 2 } false⟩ := by decide +kernel

theorem test_a_failed_slot_with_a_ready_record_in_flight_is_not_ready :
    let i : SlotId := ⟨.app, .s1⟩
    let flight := fun (st : SlotState) => (((session st 0).setCur none).modStore fun x => { x with
      writes := [⟨.slot, i.id, [], true, .stageReady ⟨.app, 1⟩ i⟩] })
    (flight .checking).readyOrTrial i = true ∧ (flight .failed).readyOrTrial i = false := by decide +kernel

/-- A STAGE-BEGIN's record reserves its target until it is DURABLE, not while it supersedes the record it replaced. -/
theorem test_a_durable_stage_begin_reserves_no_target :
    let writing := fun (step : WriteStep) => owned.setCur (some { settingsStep step [] none with
      write := ⟨.slot, 1, [], true, .stageBegin ⟨.app, 1⟩ ⟨.app, .s1⟩ []⟩ })
    (writing .valid).stageReserved .app = true ∧ (writing .supersede).stageReserved .app = false ∧
      (writing .supersede).placeTests .app false = .inl .s1 := by decide +kernel

/-- A frame that is too short, and one begun while its master was HELD. -/
theorem test_a_lost_frame_raises_no_flag :
    owned.discard .app [] = owned.raise .app flagFrameErr ∧ execRequestFrameDiscarded .app none owned = .next owned :=
  ⟨by decide +kernel, rfl⟩

/-- A wipe's forced reclaim in mount with nothing to reclaim, sector 7 out of the rotation, its erase reported RETIRED or not yet. -/
theorem test_a_wipe_waits_for_an_erase_whose_result_is_not_heard :
    let s := fun (retired : List Sector) => { owned with
      creds := { owned.creds with wipe := .erasure }
      ctl := { FlashCtl.reset with retired := retired }
      store := { owned.store with sectors := (List.range 64).map fun k => ⟨if k = 7 then .out else .open, none, none, 4096, 100⟩ } }
    (s []).wipeStuck = false ∧ (s [storeSector 7]).wipeStuck = true := by decide +kernel

theorem test_a_second_claim_writes_no_second_owner :
    let r : Req := ⟨.app, 2⟩
    let s := fun (holds : List CredHold) => { (owned.modPort .app fun p => { p with req := .working, no := 2 }) with
      creds := { owned.creds with lifecycle := .unowned, holds := holds ++ [CredHold.mk r 1 nameOwner] } }
    ((s [⟨⟨.app, 1⟩, 0, nameOwner⟩]).claimDigested r 1 [] []).store.cur.isSome = false ∧
      ((s []).claimDigested r 1 [] []).store.cur.isSome = true := by decide +kernel

end Sys2Proof.Tests
end

section
/-! The forms a command's outcome can have, and what each form leaves of the array and the fuses. -/

namespace Sys2Proof.Machine

/-- The forms of a command's outcome: a step that other blocks hear of, one that none hears of, a toggle of STAT, a part reset,
and a step that first lets the end of a program, of an erase or of a fuse attempt change the array or the fuses. -/
inductive ExecForm (c : Instr) (s : State) : Host.Outcome State Fault Refusal → Prop
  | acts (f : State → State) : ExecForm c s (act f s)
  | replies (f : State → State) : ExecForm c s (reply f s)
  | blinks : ExecForm c s (.next s.blink)
  | partResets (hc : c.resets = true) (cause : ResetCause) : ExecForm c s (.next (s.partReset cause))
  | programs (hc : c.endsProgram = true) {p : ActiveProg} (hp : s.ctl.programming = some p) (stuck : Bytes)
      (f : State → State) : ExecForm c s (act f (s.programmedBy p stuck))
  | erases (hc : c.endsErase = true) {x : Sector} {n : Nat} (hx : s.ctl.erasing = some (x, n)) (kept : List (Nat × Byte))
      (f : State → State) : ExecForm c s (act f (s.erasedBy x kept))
  | attempts (hc : c.endsAttempt = true) {i : FuseId} (hi : s.bank.underAttempt = some i) (blown : Bool)
      (f : State → State) : ExecForm c s (act f (s.attempted i blown))

theorem execPartReset_form (m : Master) (tag : Byte) (payload : Bytes) (s : State) :
    ExecForm (.partReset m tag payload) s (execPartReset m tag payload s) := by
  unfold execPartReset
  split
  · exact .partResets rfl _
  · exact .replies _

theorem execProgramEnd_form (stuck : Bytes) (s : State) : ExecForm (.programEnd stuck) s (execProgramEnd stuck s) := by
  unfold execProgramEnd
  split
  · exact .acts id
  · exact .programs rfl ‹_› stuck _

theorem execProgramTimeLimit_form (stuck : Bytes) (s : State) :
    ExecForm (.programTimeLimit stuck) s (execProgramTimeLimit stuck s) := by
  unfold execProgramTimeLimit
  split
  · exact .acts id
  · exact .programs rfl ‹_› stuck _

theorem execSectorEraseEnd_form (kept : List (Nat × Byte)) (s : State) :
    ExecForm (.sectorEraseEnd kept) s (execSectorEraseEnd kept s) := by
  unfold execSectorEraseEnd
  split
  · exact .acts id
  · exact .erases rfl ‹_› kept _

theorem execEraseTimeLimit_form (kept : List (Nat × Byte)) (s : State) :
    ExecForm (.eraseTimeLimit kept) s (execEraseTimeLimit kept s) := by
  unfold execEraseTimeLimit
  split
  · exact .acts id
  · exact .erases rfl ‹_› kept _

theorem execFuseAttemptEnd_form (blown : Bool) (s : State) :
    ExecForm (.fuseAttemptEnd blown) s (execFuseAttemptEnd blown s) := by
  unfold execFuseAttemptEnd
  split
  · exact .acts id
  · exact .attempts rfl ‹_› blown _

/-- Every command's outcome has one of the forms. -/
theorem exec_form (c : Instr) (s : State) : ExecForm c s (exec c s) := by
  cases c with
  | powerOn => exact .partResets rfl .power
  | nreset => exact .partResets rfl .pin
  | partReset m tag payload => exact execPartReset_form m tag payload s
  | programEnd stuck => exact execProgramEnd_form stuck s
  | programTimeLimit stuck => exact execProgramTimeLimit_form stuck s
  | sectorEraseEnd kept => exact execSectorEraseEnd_form kept s
  | eraseTimeLimit kept => exact execEraseTimeLimit_form kept s
  | fuseAttemptEnd blown => exact execFuseAttemptEnd_form blown s
  | statBlinkToggle => exact .blinks
  | answerRead | statusRead | eventClear | eventMask | unknownTransactionCode | unknownRequest | identify | masterState
  | settingsRead | credGet | credList | grantClose | keyInfo | keyFind | keyPublic | derivePop | lockCell | readCells | readLog
  | slotQuery | lockoutExpiry | grantExpiry | ownerButtonPress | ownerButtonRelease | requestFrameDiscarded =>
    simp only [exec]
    exact .replies _
  | _ =>
    simp only [exec]
    exact .acts _

/-! ### The array -/

@[simp] theorem State.flash_until (s : State) (d : Nat) : (s.until d).flash = s.flash := by unfold State.until; split <;> rfl
@[simp] theorem State.fuses_until (s : State) (d : Nat) : (s.until d).fuses = s.fuses := by unfold State.until; split <;> rfl

@[simp] theorem State.flash_blink (s : State) : s.blink.flash = s.flash := by
  unfold State.blink
  split
  · rfl
  · exact State.flash_until s _

@[simp] theorem State.fuses_blink (s : State) : s.blink.fuses = s.fuses := by
  unfold State.blink
  split
  · rfl
  · exact State.fuses_until s _

@[simp] theorem State.fuses_programmedBy (s : State) (p : ActiveProg) (stuck : Bytes) :
    (s.programmedBy p stuck).fuses = s.fuses := rfl

@[simp] theorem State.fuses_erasedBy (s : State) (x : Sector) (kept : List (Nat × Byte)) :
    (s.erasedBy x kept).fuses = s.fuses := rfl

@[simp] theorem State.flash_attempted (s : State) (i : FuseId) (blown : Bool) : (s.attempted i blown).flash = s.flash := by
  cases blown <;> rfl

/-- An attempt leaves the fuses as they were or blows its own. -/
theorem State.fuses_attempted (s : State) (i : FuseId) (blown : Bool) :
    (s.attempted i blown).fuses = s.fuses ∨ (s.attempted i blown).fuses = s.fuses.blow i := by
  cases blown
  · exact .inl rfl
  · exact .inr rfl

/-- What a command that makes no part reset leaves of the array (R1, R3, R9). -/
theorem exec_flash {c : Instr} {s t : State} (h : exec c s = .next t) (hr : c.resets = false) :
    t.flash = s.flash ∨
    (c.endsProgram = true ∧ ∃ p stuck, s.ctl.programming = some p ∧ t.flash = (s.programmedBy p stuck).flash) ∨
    (c.endsErase = true ∧ ∃ x n kept, s.ctl.erasing = some (x, n) ∧ t.flash = (s.erasedBy x kept).flash) := by
  have form := exec_form c s
  generalize exec c s = o at h form
  cases form with
  | acts f => exact .inl (act_frame h).2.1
  | replies f => exact .inl (reply_frame h).2.2.1
  | blinks => cases h; exact .inl s.flash_blink
  | partResets hc cause => rw [hr] at hc; cases hc
  | programs hc hp stuck f => exact .inr (.inl ⟨hc, _, stuck, hp, (act_frame h).2.1⟩)
  | erases hc hx kept f => exact .inr (.inr ⟨hc, _, _, kept, hx, (act_frame h).2.1⟩)
  | attempts hc hi blown f => exact .inl ((act_frame h).2.1.trans (s.flash_attempted _ blown))

/-- What a command that makes no part reset leaves of the fuses (R38, R44). -/
theorem exec_fuses {c : Instr} {s t : State} (h : exec c s = .next t) (hr : c.resets = false) :
    t.fuses = s.fuses ∨ (c.endsAttempt = true ∧ ∃ i, s.bank.underAttempt = some i ∧ t.fuses = s.fuses.blow i) := by
  have form := exec_form c s
  generalize exec c s = o at h form
  cases form with
  | acts f => exact .inl (act_frame h).2.2
  | replies f => exact .inl (reply_frame h).2.2.2.1
  | blinks => cases h; exact .inl s.fuses_blink
  | partResets hc cause => rw [hr] at hc; cases hc
  | programs hc hp stuck f => exact .inl (act_frame h).2.2
  | erases hc hx kept f => exact .inl (act_frame h).2.2
  | attempts hc hi blown f =>
    rw [(act_frame h).2.2]
    exact (s.fuses_attempted _ blown).imp_right fun e => ⟨hc, _, hi, e⟩

/-- No command ends both a program and an erase. -/
theorem endsErase_of_endsProgram {c : Instr} (h : c.endsProgram = true) : c.endsErase = false := by
  cases c with
  | programEnd | programTimeLimit => rfl
  | _ => cases h

/-- A program clears bits, in its own run alone (R3, R4). -/
theorem programmedBy_clears {s : State} (hw : Memory.wf s.flash = true) (p : ActiveProg) (stuck : Bytes) (a : Nat) :
    memRead (s.programmedBy p stuck).flash a &&& memRead s.flash a = memRead (s.programmedBy p stuck).flash a ∧
    (memRead (s.programmedBy p stuck).flash a ≠ memRead s.flash a →
      p.op.addr ≤ a ∧ a < p.op.addr + p.op.data.length) := by
  refine ⟨memRead_memProgram_clears p.op.data stuck p.op.addr a hw, fun hne => ?_⟩
  refine Decidable.byContradiction fun hout => hne ?_
  exact memRead_memProgram_outside p.op.data stuck p.op.addr a hw (by omega)

/-- An erase sets bits, in its own sector alone (R9). -/
theorem erasedBy_sets {s : State} (hw : Memory.wf s.flash = true) (x : Sector) (kept : List (Nat × Byte)) (a : Nat) :
    memRead (s.erasedBy x kept).flash a ||| memRead s.flash a = memRead (s.erasedBy x kept).flash a ∧
    (memRead (s.erasedBy x kept).flash a ≠ memRead s.flash a → x.base ≤ a ∧ a < x.base + x.size) := by
  refine ⟨memRead_memErase_sets x.base x.size a (keptAt kept) hw, fun hne => ?_⟩
  refine Decidable.byContradiction fun hout => hne ?_
  exact (memRead_memErase x.base x.size a (keptAt kept) hw).trans (if_neg hout)

/-! ### Part resets -/

/-! What a part reset leaves in each block that takes its part-reset values (R108). -/

@[simp] theorem State.ctl_partReset (s : State) (cause : ResetCause) : (s.partReset cause).ctl = .reset := rfl
@[simp] theorem State.engine_partReset (s : State) (cause : ResetCause) : (s.partReset cause).engine = .reset := rfl
@[simp] theorem State.bank_partReset (s : State) (cause : ResetCause) :
    (s.partReset cause).bank = { FuseBank.reset with seen := s.bank.seen } := rfl
@[simp] theorem State.store_partReset (s : State) (cause : ResetCause) : (s.partReset cause).store = .reset := rfl
@[simp] theorem State.keys_partReset (s : State) (cause : ResetCause) : (s.partReset cause).keys = .reset := rfl
@[simp] theorem State.meas_partReset (s : State) (cause : ResetCause) : (s.partReset cause).meas = .reset := rfl
@[simp] theorem State.creds_partReset (s : State) (cause : ResetCause) : (s.partReset cause).creds = .reset := rfl
@[simp] theorem State.resetCause_partReset (s : State) (cause : ResetCause) : (s.partReset cause).resetCause = cause := rfl
@[simp] theorem State.clock_partReset (s : State) (cause : ResetCause) : (s.partReset cause).clock = 0 := rfl
@[simp] theorem State.inbox_partReset (s : State) (cause : ResetCause) : (s.partReset cause).inbox = [] := rfl
@[simp] theorem State.pending_partReset (s : State) (cause : ResetCause) : (s.partReset cause).pending = s.pending := rfl
@[simp] theorem State.sup_partReset (s : State) (cause : ResetCause) (m : Master) : (s.partReset cause).sup m = .reset := by
  cases m <;> rfl
@[simp] theorem State.port_partReset (s : State) (cause : ResetCause) (m : Master) : (s.partReset cause).port m = .reset := by
  cases m <;> rfl
@[simp] theorem State.measSet_partReset (s : State) (cause : ResetCause) (m : Master) :
    (s.partReset cause).measSet m = .reset := by
  cases m <;> rfl

/-- The array after a part reset has abandoned the active program (R17). -/
def State.abandonedProgram (s : State) : List Host.Cell :=
  match s.ctl.prog with
  | none => s.flash
  | some p => memProgram s.flash p.op.addr p.op.data (s.freeBytes 256)

/-- A part reset abandons the program, then the erase (R17). -/
theorem State.flash_partReset (s : State) (cause : ResetCause) :
    (s.partReset cause).flash =
      match s.ctl.underErase with
      | none => s.abandonedProgram
      | some x => memErase x.base x.size (fun off => Config.freeByte (s.free + 256 + off)) s.abandonedProgram := rfl

theorem State.abandonedProgram_wf {s : State} (h : Memory.wf s.flash = true) : Memory.wf s.abandonedProgram = true := by
  unfold State.abandonedProgram
  split
  · exact h
  · exact memProgram_wf _ _ _ h

/-- A part reset keeps the canonical form of the array. -/
theorem partReset_wf {s : State} (cause : ResetCause) (h : Memory.wf s.flash = true) :
    Memory.wf (s.partReset cause).flash = true := by
  rw [State.flash_partReset]
  split
  · exact State.abandonedProgram_wf h
  · exact memErase_wf _ _ _ (State.abandonedProgram_wf h)

/-- The abandoned program changes no location outside its run (R17). -/
theorem memRead_abandonedProgram {s : State} (hw : Memory.wf s.flash = true) {a : Nat}
    (ha : ∀ p, s.ctl.prog = some p → a < p.op.addr ∨ p.op.addr + p.op.data.length ≤ a) :
    memRead s.abandonedProgram a = memRead s.flash a := by
  unfold State.abandonedProgram
  split
  · rfl
  · exact memRead_memProgram_outside _ _ _ _ hw (ha _ ‹_›)

/-- The fuses a part reset leaves: at most the one under attempt is blown (R48). -/
theorem State.fuses_partReset (s : State) (cause : ResetCause) :
    (s.partReset cause).fuses =
      match s.bank.underAttempt with
      | none => s.fuses
      | some f => if Config.freeBit s.flashReset.free then s.fuses.blow f else s.fuses := rfl

/-! ### Every command and step -/

/-- Every command keeps the canonical form of the array. -/
theorem exec_wf {c : Instr} {s t : State} (hw : Memory.wf s.flash = true) (h : exec c s = .next t) :
    Memory.wf t.flash = true := by
  have form := exec_form c s
  generalize exec c s = o at h form
  cases form with
  | acts f => rw [(act_frame h).2.1]; exact hw
  | replies f => rw [(reply_frame h).2.2.1]; exact hw
  | blinks => cases h; rw [State.flash_blink]; exact hw
  | partResets hc cause => cases h; exact partReset_wf cause hw
  | programs hc hp stuck f => rw [(act_frame h).2.1]; exact memProgram_wf _ stuck _ hw
  | erases hc hx kept f => rw [(act_frame h).2.1]; exact memErase_wf _ _ _ hw
  | attempts hc hi blown f => rw [(act_frame h).2.1, State.flash_attempted]; exact hw

/-! ### The obligations -/

/-- Settles O56: each outcome has one of the forms of `ExecForm`, and only those of its own kind of command change the array or
the fuses. -/
theorem onlyTheirOwnCommandsChangeArrayAndFuses : Obligations.OnlyTheirOwnCommandsChangeArrayAndFuses := by
  intro c s t h hr
  refine ⟨fun hp he => ?_, fun hp hw a => ?_, fun he hw a => ?_, fun ha => ?_, fun _ => ?_⟩
  · obtain e | ⟨hc, -⟩ | ⟨hc, -⟩ := exec_flash h hr
    · exact e
    · rw [hp] at hc; cases hc
    · rw [he] at hc; cases hc
  · obtain e | ⟨-, p, stuck, hprog, e⟩ | ⟨hc, -⟩ := exec_flash h hr
    · rw [e]; exact ⟨BitVec.and_self, fun hne => absurd rfl hne⟩
    · rw [e]
      exact (programmedBy_clears hw p stuck a).imp_right fun hin hne => ⟨p, hprog, hin hne⟩
    · rw [endsErase_of_endsProgram hp] at hc; cases hc
  · obtain e | ⟨hc, -⟩ | ⟨-, x, n, kept, hx, e⟩ := exec_flash h hr
    · rw [e]; exact ⟨BitVec.or_self, fun hne => absurd rfl hne⟩
    · rw [endsErase_of_endsProgram hc] at he; cases he
    · rw [e]
      exact (erasedBy_sets hw x kept a).imp_right fun hin hne => ⟨x, n, hx, hin hne⟩
  · obtain e | ⟨hc, -⟩ := exec_fuses h hr
    · exact e
    · rw [ha] at hc; cases hc
  · exact (exec_fuses h hr).imp_right fun ⟨_, i, hi, e⟩ => ⟨i, hi, e⟩

/-- Settles O57: time that passes leaves the array alone, and every command keeps its canonical form. -/
theorem everyStepKeepsTheStatesForm : Obligations.EveryStepKeepsTheStatesForm := by
  intro s t hs h
  unfold step at h
  split at h
  · cases h; exact hs
  · rename_i c rest _
    exact exec_wf (s := { s with pending := rest }) hs h

/-- Settles O5. -/
theorem partResetLeavesPartResetValues : Obligations.PartResetLeavesPartResetValues := by
  intro s cause m
  simp [State.alertAsserted, State.resetAsserted, FlashCtl.reset, Engine.reset, FuseBank.reset, Store.reset, MasterRec.reset,
    Port.reset, KeyMgr.reset, MeasUnit.reset, MeasSet.reset, CredMgr.reset, flagAnswer]

/-- Settles O6: the program and the erase that a part reset abandons touch their own run and sector alone, the attempt its own
fuse. -/
theorem partResetKeepsArrayAndFuses : Obligations.PartResetKeepsArrayAndFuses := by
  intro s cause
  refine ⟨fun hw a hp hx => ?_, fun hn => ?_, fun f hf => ?_⟩
  · rw [State.flash_partReset]
    split
    · exact memRead_abandonedProgram hw hp
    · rename_i x hu
      have hout : ¬ (x.base ≤ a ∧ a < x.base + x.size) := by have := hx x hu; omega
      rw [memRead_memErase _ _ _ _ (State.abandonedProgram_wf hw), if_neg hout]
      exact memRead_abandonedProgram hw hp
  · rw [State.fuses_partReset, hn]
  · rw [State.fuses_partReset, hf]
    cases Config.freeBit s.flashReset.free
    · exact .inl rfl
    · exact .inr rfl

/-- Settles O2: on an empty queue a step is a millisecond that passes. -/
theorem emptyQueueLetsAMillisecondPass : Obligations.EmptyQueueLetsAMillisecondPass := by
  intro s h
  have hstep : step s = .next (s.pass 1000) := by simp only [step, h]
  exact hstep

end Sys2Proof.Machine
end

section
/-! The rules of the Flash Controller: what its service order, an arriving read and the end of a read do, case by case. -/

namespace Sys2Proof.Machine

/-! ### The array's activity (1.1) -/

theorem FlashCtl.any_running_false {c : FlashCtl} (h : ∀ b, c.batch = some b → b.state ≠ .running) :
    c.batch.any (fun b => decide (b.state = .running)) = false := by
  cases hb : c.batch with
  | none => rfl
  | some b => simpa using h b hb

theorem FlashCtl.activity_erasing {c : FlashCtl} {b : Batch} (hb : c.batch = some b) (hr : b.state = .running) :
    c.activity = .erasing := by
  simp [FlashCtl.activity, hb, hr]

theorem FlashCtl.activity_programming {c : FlashCtl} {p : ActiveProg} (hb : ∀ b, c.batch = some b → b.state ≠ .running)
    (hp : c.prog = some p) (hs : p.suspended = false) : c.activity = .programming := by
  simp [FlashCtl.activity, any_running_false hb, hp, hs]

/-- Without a RUNNING batch or a program that runs, the array is FREE or READING. -/
theorem FlashCtl.activity_idle {c : FlashCtl} (hb : ∀ b, c.batch = some b → b.state ≠ .running)
    (hp : ∀ p, c.prog = some p → p.suspended = true) :
    c.activity = if c.reads.isEmpty then .free else .reading := by
  have hprog : c.prog.any (fun p => !p.suspended) = false := by
    cases h : c.prog with
    | none => rfl
    | some p => simpa using hp p h
  simp [FlashCtl.activity, any_running_false hb, hprog]

/-! ### Service order (R12) -/

theorem FlashCtl.arbitrate_busy {c : FlashCtl} (h : c.activity ≠ .free) (now : Nat) : c.arbitrate now = c := by
  unfold FlashCtl.arbitrate
  rw [if_pos h]

theorem FlashCtl.arbitrate_programming {c : FlashCtl} {p : ActiveProg} {now : Nat} (hp : c.prog = some p)
    (hs : p.suspended = false) (hb : ∀ b, c.batch = some b → b.state ≠ .running) : c.arbitrate now = c :=
  arbitrate_busy (by rw [activity_programming hb hp hs]; decide) now

theorem FlashCtl.runnableReads_nil {c : FlashCtl} (h : ∀ r, Waiting.read r ∉ c.wait) : c.runnableReads = [] := by
  have hr : (c.wait.filterMap fun
      | .read r => if c.held r.run then none else some r
      | .program _ => none) = [] := by
    rw [List.filterMap_eq_nil_iff]
    intro w hw
    cases w with
    | read r => exact absurd hw (h r)
    | program p => rfl
  unfold FlashCtl.runnableReads
  exact congrArg (fun rs : List ReadOp => rs.filter (·.isBoot) ++ rs.filter fun r => !r.isBoot) hr

/-- With nothing waiting, a batch that gathers until later, or none, is all there is: the service order does nothing. -/
theorem FlashCtl.arbitrate_nothing {c : FlashCtl} {now : Nat} (hw : c.wait = [])
    (hb : ∀ b, c.batch = some b → b.state = .gathering ∧ now < b.closes) : c.arbitrate now = c := by
  have hr : c.runnableReads = [] := runnableReads_nil (by simp [hw])
  have hp : c.runnableProgram = none := by simp [FlashCtl.runnableProgram, hw]
  unfold FlashCtl.arbitrate
  cases hbatch : c.batch with
  | none => simp [hr, hp]
  | some b =>
    obtain ⟨hg, hc⟩ := hb b hbatch
    simp [hr, hp, hg, Nat.not_le.mpr hc]

/-- A GATHERING batch whose window has passed starts, nothing else at the array (R8, R12). -/
theorem FlashCtl.arbitrate_batch {c : FlashCtl} {now : Nat} {b : Batch} (hr : c.reads = []) (hp : c.prog = none)
    (hw : c.wait = []) (hb : c.batch = some b) (hg : b.state = .gathering) (hc : b.closes ≤ now) :
    c.arbitrate now = { c with batch := some { b with state := .running, suspends := 0, active := 0 } } := by
  have hfree : c.activity = .free := by
    rw [activity_idle (by simp [hb, hg]) (by simp [hp]), hr]; rfl
  have hnr : c.runnableReads = [] := runnableReads_nil (by simp [hw])
  have hnp : c.runnableProgram = none := by simp [FlashCtl.runnableProgram, hw]
  unfold FlashCtl.arbitrate
  simp [hfree, hnr, hnp, hb, hg, hc, FlashCtl.startBatch]

/-- A program that waits alone, on no sector with an erase outstanding, starts (R12). -/
theorem FlashCtl.arbitrate_program {c : FlashCtl} {p : ProgOp} (now : Nat) (hr : c.reads = []) (hp : c.prog = none)
    (hb : c.batch = none) (hw : c.wait = [.program p]) (ho : c.outstanding = []) :
    c.arbitrate now = { c with wait := [], prog := some ⟨p, 0, false⟩ } := by
  have hfree : c.activity = .free := by
    rw [activity_idle (by simp [hb]) (by simp [hp]), hr]; rfl
  have hnr : c.runnableReads = [] := runnableReads_nil (by simp [hw])
  have hnp : c.runnableProgram = some p := by simp [FlashCtl.runnableProgram, hw, FlashCtl.held, ho]
  unfold FlashCtl.arbitrate
  simp [hfree, hnr, hnp, hw, FlashCtl.start]

theorem arbitrate_of_ctl {s : State} {c : FlashCtl} (h : s.ctl.arbitrate s.clock = c) : s.arbitrate = { s with ctl := c } := by
  rw [State.arbitrate, State.modCtl, h]

/-! ### Time that passes (R9, R13) -/

/-- With no program running and no batch RUNNING only the clock moves. -/
theorem pass_idle {s : State} (hp : s.ctl.prog = none) (hb : ∀ b, s.ctl.batch = some b → b.state ≠ .running) (d : Nat) :
    s.pass d = { s with clock := s.clock + d } := by
  have hbatch : (s.ctl.batch.map fun b => if b.state = .running then { b with active := b.active + d } else b) = s.ctl.batch := by
    cases h : s.ctl.batch with
    | none => rfl
    | some b => simp [hb b h]
  simp only [State.pass, hbatch, hp, Option.map_none]
  rw [← hp]

theorem until_idle {s : State} (hp : s.ctl.prog = none) (hb : ∀ b, s.ctl.batch = some b → b.state ≠ .running) (t : Nat) :
    s.until t = { s with clock := max s.clock t } := by
  unfold State.until
  split
  · rw [pass_idle hp hb]
    congr 1
    omega
  · rw [Nat.max_eq_left (by omega)]

/-! ### An arriving read (R6, R10, R11, R13) -/

theorem FlashCtl.arriveRead_held {c : FlashCtl} {r : ReadOp} (h : c.held r.run = true) :
    c.arriveRead r = { c with wait := c.wait ++ [.read r] } := by
  simp [FlashCtl.arriveRead, h, FlashCtl.defer]

theorem FlashCtl.arriveRead_idle {c : FlashCtl} {r : ReadOp} (h : c.held r.run = false) (hp : c.prog = none)
    (hb : ∀ b, c.batch = some b → b.state ≠ .running) : c.arriveRead r = { c with reads := c.reads ++ [r] } := by
  have ha := activity_idle hb (by simp [hp])
  unfold FlashCtl.arriveRead
  rw [h, ha]
  cases c.reads.isEmpty <;> simp [FlashCtl.grant, hp]

/-- A boot read suspends the program it finds, if no other has suspended it before (R13). -/
theorem FlashCtl.arriveRead_program {c : FlashCtl} {r : ReadOp} {p : ActiveProg} (h : c.held r.run = false)
    (hboot : r.isBoot = true) (hp : c.prog = some p) (hb : ∀ b, c.batch = some b → b.state ≠ .running) :
    c.arriveRead r = { c with reads := c.reads ++ [r], prog := some { p with suspended := true } } := by
  unfold FlashCtl.arriveRead
  cases hs : p.suspended with
  | false =>
    rw [h, activity_programming hb hp hs]
    simp [hboot, FlashCtl.suspendProg, FlashCtl.grant, hp]
  | true =>
    have hsame : some { p with suspended := true } = c.prog := by rw [hp, ← hs]
    rw [h, activity_idle hb (by simp [hp, hs]), hsame]
    cases c.reads.isEmpty <;> simp [FlashCtl.grant, hboot]

/-- A read suspends a RUNNING batch that has a suspension left (R10). -/
theorem FlashCtl.arriveRead_erasing {c : FlashCtl} {r : ReadOp} {b : Batch} (h : c.held r.run = false)
    (hb : c.batch = some b) (hr : b.state = .running) (hs : b.suspends < 256) :
    c.arriveRead r =
      { c with reads := c.reads ++ [r], batch := some { b with state := .suspended, suspends := b.suspends + 1 } } := by
  unfold FlashCtl.arriveRead
  rw [h, activity_erasing hb hr]
  simp [FlashCtl.budget, hb, hs, FlashCtl.suspendBatch, FlashCtl.grant]

/-- A read waits for a RUNNING batch that has none left (R11). -/
theorem FlashCtl.arriveRead_exhausted {c : FlashCtl} {r : ReadOp} {b : Batch} (h : c.held r.run = false)
    (hb : c.batch = some b) (hr : b.state = .running) (hs : 256 ≤ b.suspends) :
    c.arriveRead r = { c with wait := c.wait ++ [.read r] } := by
  unfold FlashCtl.arriveRead
  rw [h, activity_erasing hb hr]
  simp [FlashCtl.budget, hb, Nat.not_lt.mpr hs, FlashCtl.defer]

/-! ### The end of a read (R13, R16) -/

/-- The only read in progress ends, with no program and nothing that waits. -/
theorem endRead_alone {s : State} {op : ReadOp} (hr : s.ctl.reads = [op]) (hp : s.ctl.prog = none) (hw : s.ctl.wait = [])
    (hb : s.ctl.batch = none) : s.endRead op = { s with ctl := { s.ctl with reads := [] } } := by
  have h : s.endRead op = State.arbitrate { s with ctl := { s.ctl with reads := [] } } := by
    simp only [State.endRead, State.modCtl, hr, hp, List.erase_cons_head, List.any_nil, Option.map_none]
    rw [← hp]
    rfl
  rw [h]
  exact arbitrate_of_ctl (FlashCtl.arbitrate_nothing hw (by simp [hb]))

/-- The only read in progress ends and a program it had suspended resumes (R13). -/
theorem endRead_resumes {s : State} {op : ReadOp} {p : ActiveProg} (hr : s.ctl.reads = [op]) (hp : s.ctl.prog = some p)
    (hb : ∀ b, s.ctl.batch = some b → b.state ≠ .running) :
    s.endRead op = { s with ctl := { s.ctl with reads := [], prog := some { p with suspended := false } } } := by
  have h : s.endRead op =
      State.arbitrate { s with ctl := { s.ctl with reads := [], prog := some { p with suspended := false } } } := by
    simp only [State.endRead, State.modCtl, hr, hp, List.erase_cons_head, List.any_nil, Option.map_some]
    rfl
  rw [h]
  exact arbitrate_of_ctl (FlashCtl.arbitrate_programming rfl rfl hb)

/-! ### A boot read that ends or is withdrawn (R16, R18) -/

theorem dropBootRead_reading {s : State} {m : Master} {op : ReadOp} (hr : s.ctl.reads = [op]) (hm : op.by_ = .boot m) :
    s.dropBootRead m = s.endRead op := by
  unfold State.dropBootRead
  rw [hr]
  simp [hm]

/-- A boot read that is not in progress leaves the wait list. -/
theorem dropBootRead_unread {s : State} {m : Master} (hr : ∀ op ∈ s.ctl.reads, op.by_ ≠ .boot m) :
    s.dropBootRead m = { s with ctl := { s.ctl with wait := s.ctl.wait.filter fun
      | .read r => !decide (r.by_ = .boot m)
      | .program _ => true } } := by
  have hf : (s.ctl.reads.find? fun r => decide (r.by_ = .boot m)) = none := by
    simpa [List.find?_eq_none] using hr
  unfold State.dropBootRead
  split
  · rename_i h
    rw [hf] at h
    cases h
  · rfl

theorem dropBootRead_none {s : State} {m : Master} (hr : ∀ op ∈ s.ctl.reads, op.by_ ≠ .boot m)
    (hw : ∀ op, Waiting.read op ∈ s.ctl.wait → op.by_ ≠ .boot m) : s.dropBootRead m = s := by
  have hf : (s.ctl.wait.filter fun
      | .read r => !decide (r.by_ = .boot m)
      | .program _ => true) = s.ctl.wait := by
    rw [List.filter_eq_self]
    intro w hmem
    cases w with
    | read r => simpa using hw r hmem
    | program p => rfl
  rw [dropBootRead_unread hr, hf]

/-! ### Whether a boot read waits (R16) -/

theorem bootWaits_iff {s : State} {m : Master} :
    s.bootWaits m = true ↔ ∃ op, Waiting.read op ∈ s.ctl.wait ∧ op.by_ = .boot m := by
  unfold State.bootWaits
  rw [List.any_eq_true]
  constructor
  · rintro ⟨w, hmem, hw⟩
    cases w with
    | read r => exact ⟨r, hmem, of_decide_eq_true hw⟩
    | program p => cases hw
  · rintro ⟨op, hmem, hop⟩
    exact ⟨.read op, hmem, decide_eq_true hop⟩

theorem bootWaits_false {s : State} {m : Master} (hw : ∀ op, Waiting.read op ∈ s.ctl.wait → op.by_ ≠ .boot m) :
    s.bootWaits m = false := by
  rw [Bool.eq_false_iff, Ne, bootWaits_iff]
  rintro ⟨op, hmem, hop⟩
  exact hw op hmem hop

end Sys2Proof.Machine
end

section
/-! What the Flash Controller's own commands do: O47, O13, O14 and O55. -/

namespace Sys2Proof.Machine

/-! ### Batches and programs that start (R8, R12) -/

/-- Settles O47. -/
theorem batchesAndWaitingProgramsStart : Obligations.BatchesAndWaitingProgramsStart := by
  intro s hi hr hp
  refine ⟨fun b hb hg hw => ⟨?_, fun hc => ?_⟩, fun p hb hw ho => ?_⟩
  · have hclosed : s.gatherClosed =
        { s with clock := max s.clock b.closes, ctl := { s.ctl with
          batch := some { b with state := .running, suspends := 0, active := 0 } } } := by
      simp only [State.gatherClosed, hb, hg, if_true]
      rw [until_idle hp (by simp [hb, hg])]
      exact arbitrate_of_ctl (FlashCtl.arbitrate_batch hr hp hw hb hg (Nat.le_max_right _ _))
    exact act_calm hi hclosed hi rfl rfl rfl rfl
  · exact act_calm hi (arbitrate_of_ctl (FlashCtl.arbitrate_batch hr hp hw hb hg hc)) hi rfl rfl rfl rfl
  · exact act_calm hi (arbitrate_of_ctl (FlashCtl.arbitrate_program s.clock hr hp hb hw ho)) hi rfl rfl rfl rfl

/-! ### The address phase of a BOOT-READ (R16, R99, R100) -/

/-- The run of the served body from a window address on. -/
theorem windowRun_slot {s : State} {m : Master} {k : SlotNo} (h : (s.sup m).served = .slot k) (a : Nat) :
    s.windowRun m a =
      if a < manifestLength (s.slot ⟨m, k⟩).mf then
        some ⟨(SlotId.mk m k).bodyAddr a, manifestLength (s.slot ⟨m, k⟩).mf - a⟩
      else none := by
  simp only [State.windowRun, h]

theorem windowRun_rescue {s : State} {m : Master} (h : (s.sup m).served = .rescue) (a : Nat) : s.windowRun m a = none := by
  simp only [State.windowRun, h]

/-- BOOT_READ of a BOOTING master whose boot reads have ended. -/
theorem bootRead_begins {s : State} {m : Master} (hm : (s.sup m).phase = .booting)
    (hr : ∀ op ∈ s.ctl.reads, op.by_ ≠ .boot m) (hw : ∀ op, Waiting.read op ∈ s.ctl.wait → op.by_ ≠ .boot m) :
    s.bootRead m = s.modPort m fun p => { p with boot := some ⟨none, 0, false, false⟩, out := [] } := by
  simp [State.bootRead, hm, dropBootRead_none hr hw]

theorem exec_bootRead (m : Master) (s : State) : exec (.bootRead m) s = act (fun s => s.bootRead m) s := rfl

theorem exec_bootReadArrival (m : Master) (a : BitVec 24) (s : State) :
    exec (.bootReadArrival m a) s = act (fun s => s.bootAddressed m a.toNat) s := rfl

section
variable {s : State} {m : Master} {a : Nat} (hboot : (s.port m).boot = some ⟨none, 0, false, false⟩)
include hboot

/-- With the window PENDING the address is kept. -/
theorem bootAddressed_pending (h : (s.sup m).window = some .pending) :
    s.bootAddressed m a = s.modPort m fun p => { p with boot := some ⟨some a, 0, false, false⟩ } := by
  simp [State.bootAddressed, hboot, h]

theorem bootAddressed_open (h : (s.sup m).window = some .open) :
    s.bootAddressed m a =
      (s.modPort m fun p => { p with boot := some ⟨some a, 0, true, false⟩ }).bootArrives m a := by
  simp [State.bootAddressed, hboot, h]

/-- With the window OPEN no boot read arrives outside the served body. -/
theorem bootAddressed_nowhere (h : (s.sup m).window = some .open) (hrun : s.windowRun m a = none) :
    s.bootAddressed m a = s.modPort m fun p => { p with boot := some ⟨some a, 0, true, false⟩ } := by
  have hrun' : (s.modPort m fun p => { p with boot := some ⟨some a, 0, true, false⟩ }).windowRun m a = none := hrun
  rw [bootAddressed_open hboot h]
  unfold State.bootArrives
  rw [hrun']

/-- In the served body the boot read arrives: what the Flash Controller makes of it, and whether it waits. -/
theorem bootAddressed_arrives (h : (s.sup m).window = some .open) {run : Run} {c : FlashCtl} {delayed : Bool}
    (hrun : s.windowRun m a = some run) (hc : s.ctl.arriveRead ⟨.boot m, run⟩ = c)
    (hd : State.bootWaits { s with ctl := c } m = delayed) :
    s.bootAddressed m a =
      ({ s with ctl := c } : State).modPort m fun p => { p with boot := some ⟨some a, 0, true, delayed⟩ } := by
  have hrun' : (s.modPort m fun p => { p with boot := some ⟨some a, 0, true, false⟩ }).windowRun m a = some run := hrun
  rw [bootAddressed_open hboot h]
  subst hd hc
  unfold State.bootArrives
  rw [hrun']
  simp only [State.submitRead, State.modCtl, State.modPort, Tri.get_set_same, Tri.set_set, Option.map_some]
  rfl

end

/-- A boot read that is granted as it arrives does not wait, none of its master waiting before it. -/
theorem bootWaits_granted {s : State} {m : Master} {c : FlashCtl} (hc : c.wait = s.ctl.wait)
    (hw : ∀ op, Waiting.read op ∈ s.ctl.wait → op.by_ ≠ .boot m) : State.bootWaits { s with ctl := c } m = false :=
  bootWaits_false (s := { s with ctl := c }) (hc ▸ hw)

theorem bootWaits_deferred {s : State} {m : Master} {run : Run} :
    State.bootWaits { s with ctl := { s.ctl with wait := s.ctl.wait ++ [.read ⟨.boot m, run⟩] } } m = true :=
  bootWaits_iff.mpr ⟨_, List.mem_append_right _ (List.mem_singleton.mpr rfl), rfl⟩

/-- A step whose effect reaches the Flash Controller and one port alone. -/
theorem act_ctl_port {s : State} {f : State → State} {c : FlashCtl} {m : Master} {g : Port → Port} (hi : s.inbox = [])
    (h : f s = ({ s with ctl := c } : State).modPort m g) :
    act f s = .next (({ s with ctl := c } : State).modPort m g).updateStat :=
  act_calm hi h hi rfl rfl rfl rfl

/-- Settles O13. -/
theorem bootReadArrivesAtTheArray : Obligations.BootReadArrivesAtTheArray := by
  intro m s hi hm hr hw
  refine ⟨(exec_bootRead m s).trans (act_ctl_port hi (bootRead_begins hm hr hw)), fun a hboot => ?_⟩
  have addressed : ∀ {c : FlashCtl} {g : Port → Port},
      s.bootAddressed m a.toNat = ({ s with ctl := c } : State).modPort m g →
      exec (.bootReadArrival m a) s = .next (({ s with ctl := c } : State).modPort m g).updateStat := fun h =>
    (exec_bootReadArrival m a s).trans (act_ctl_port hi h)
  refine ⟨fun hpend => ?_, fun hopen hres => ?_, fun n hopen hslot => ⟨fun hlen => ?_, fun hlen => ?_⟩⟩
  · exact addressed (bootAddressed_pending hboot hpend)
  · exact addressed (bootAddressed_nowhere hboot hopen (windowRun_rescue hres _))
  · exact addressed (bootAddressed_nowhere hboot hopen ((windowRun_slot hslot _).trans (if_neg (Nat.not_lt.mpr hlen))))
  have hrun := (windowRun_slot hslot a.toNat).trans (if_pos hlen)
  refine ⟨fun held => ?_, fun free => ⟨fun hb => ⟨fun hp => ?_, fun p hp => ?_⟩,
    fun b hb hrunning => ⟨fun hs => ?_, fun hs => ?_⟩⟩⟩
  · exact addressed (bootAddressed_arrives hboot hopen hrun (FlashCtl.arriveRead_held held) bootWaits_deferred)
  · exact addressed (bootAddressed_arrives hboot hopen hrun (FlashCtl.arriveRead_idle free hp hb) (bootWaits_granted rfl hw))
  · exact addressed (bootAddressed_arrives hboot hopen hrun (FlashCtl.arriveRead_program free rfl hp hb)
      (bootWaits_granted rfl hw))
  · exact addressed (bootAddressed_arrives hboot hopen hrun (FlashCtl.arriveRead_erasing free hb hrunning hs)
      (bootWaits_granted rfl hw))
  · exact addressed (bootAddressed_arrives hboot hopen hrun (FlashCtl.arriveRead_exhausted free hb hrunning hs)
      bootWaits_deferred)

/-! ### The end of a BOOT-READ (R13, R16, R99, R100) -/

theorem exec_bootReadEnd (m : Master) (w n : Nat) (s : State) :
    exec (.bootReadEnd m w n) s = act (fun s => s.bootEnded m w n) s := rfl

/-- A transaction not clocked past the window's end does not wrap. -/
theorem bootWraps_short {s : State} {m : Master} {a n : Nat} (h : a + n ≤ 16777216) (opened delayed : Bool) :
    s.bootWraps m ⟨some a, 0, opened, delayed⟩ n = s := by
  have hs : ¬ 16777216 < (a + 0) % 16777216 + (n - 0) := by have := Nat.mod_le (a + 0) 16777216; omega
  unfold State.bootWraps
  dsimp only
  split
  · rw [if_neg fun hc => hs hc.2.2]
  · rfl

/-- The end of such a transaction: the bytes it drove are out, and its boot read is dropped. -/
theorem bootEnded_short {s t : State} {m : Master} {a n w : Nat} {opened delayed : Bool} {out : Bytes}
    (hboot : (s.port m).boot = some ⟨some a, 0, opened, delayed⟩) (hn : a + n ≤ 16777216)
    (hout : s.bootBytes m ⟨some a, 0, opened, delayed⟩ w n = out) (ht : s.dropBootRead m = t) :
    s.bootEnded m w n = t.modPort m fun p => { p with boot := none, out := out } := by
  unfold State.bootEnded
  rw [hboot]
  simp only [bootWraps_short hn, hout, ht]

/-- The byte a transaction drove at each place, not clocked past the window's end. -/
theorem bootBytes_short {s : State} {m : Master} {a n w : Nat} (hn : a + n ≤ 16777216) (opened delayed : Bool)
    {byte : Nat → Byte}
    (h : ∀ i < n,
      (if !opened then 0xFF#8
        else if s.inBody m (a + i) && (s.bootWaits m || (delayed && decide (i < w))) then 0xFF#8
        else s.windowByte m (a + i)) = byte i) :
    s.bootBytes m ⟨some a, 0, opened, delayed⟩ w n = (List.range n).map byte := by
  unfold State.bootBytes
  refine List.map_congr_left fun i hi => ?_
  rw [List.mem_range] at hi
  rw [Nat.mod_eq_of_lt (by omega), ← h i hi]
  simp

theorem inBody_slot {s : State} {m : Master} {k : SlotNo} (h : (s.sup m).served = .slot k) (a : Nat) :
    s.inBody m a = decide (a < manifestLength (s.slot ⟨m, k⟩).mf) := by
  unfold State.inBody
  rw [windowRun_slot h]
  split <;> simp [*]

theorem windowByte_slot {s : State} {m : Master} {k : SlotNo} (h : (s.sup m).served = .slot k) (a : Nat) :
    s.windowByte m a =
      if a < manifestLength (s.slot ⟨m, k⟩).mf then memRead s.flash ((SlotId.mk m k).bodyAddr a) else 0xFF#8 := by
  simp only [State.windowByte, h]
  rfl

/-- Such a transaction drove nothing but 0xFF. -/
theorem bootBytes_silent {s : State} {m : Master} {a n w : Nat} (hn : a + n ≤ 16777216) {opened delayed : Bool}
    (h : ∀ i < n, opened = true → (s.inBody m (a + i) && (s.bootWaits m || (delayed && decide (i < w)))) = false →
      s.windowByte m (a + i) = 0xFF#8) :
    s.bootBytes m ⟨some a, 0, opened, delayed⟩ w n = List.replicate n 0xFF#8 := by
  have hbytes := bootBytes_short (s := s) (m := m) (w := w) hn opened delayed (byte := fun _ => 0xFF#8) fun i hin => by
    cases opened with
    | false => rfl
    | true =>
      simp only [Bool.not_true, Bool.false_eq_true, if_false]
      split
      · rfl
      · exact h i hin rfl (Bool.eq_false_iff.mpr ‹_›)
  rw [hbytes, List.map_const', List.length_range]

/-- The bytes driven from a slot, the boot read in progress at the end. -/
theorem bootBytes_slot {s : State} {m : Master} {k : SlotNo} {a n w : Nat} (hn : a + n ≤ 16777216)
    (hk : (s.sup m).served = .slot k) (hw : ∀ op, Waiting.read op ∈ s.ctl.wait → op.by_ ≠ .boot m) (delayed : Bool) :
    s.bootBytes m ⟨some a, 0, true, delayed⟩ w n = (List.range n).map fun i =>
      if manifestLength (s.slot ⟨m, k⟩).mf ≤ a + i ∨ (delayed = true ∧ i < w) then 0xFF#8
      else memRead s.flash ((SlotId.mk m k).bodyAddr (a + i)) := by
  refine bootBytes_short hn true delayed fun i _ => ?_
  rw [inBody_slot hk, windowByte_slot hk, bootWaits_false hw]
  by_cases hin : a + i < manifestLength (s.slot ⟨m, k⟩).mf
  · simp [hin, Nat.not_le.mpr hin]
  · simp [hin, Nat.not_lt.mp hin]

/-- Settles O14. -/
theorem bootReadEndDrivesTheWindow : Obligations.BootReadEndDrivesTheWindow := by
  intro m a n w s hi hn
  have ended : ∀ {opened delayed : Bool} {c : FlashCtl} {out : Bytes},
      (s.port m).boot = some ⟨some a, 0, opened, delayed⟩ →
      s.bootBytes m ⟨some a, 0, opened, delayed⟩ w n = out → s.dropBootRead m = { s with ctl := c } →
      exec (.bootReadEnd m w n) s = .next (({ s with ctl := c } : State).modPort m fun p =>
        { p with boot := none, out := out }).updateStat := fun hboot hout ht =>
    (exec_bootReadEnd m w n s).trans (act_ctl_port hi (bootEnded_short hboot hn hout ht))
  refine ⟨fun k delayed hboot hk => ⟨fun op hr hop hw => ⟨fun hwait hp hb => ?_, fun p hp hs hb => ?_⟩,
    fun hr hwaits => ?_, fun hr hw hlen => ?_⟩, fun hr hw => ⟨fun hboot hres => ?_, fun hboot => ?_⟩⟩
  · exact ended hboot (bootBytes_slot hn hk hw delayed)
      ((dropBootRead_reading hr hop).trans (endRead_alone hr hp hwait hb))
  · exact ended hboot (bootBytes_slot hn hk hw delayed)
      ((dropBootRead_reading hr hop).trans (endRead_resumes hr hp hb))
  · refine ended hboot (bootBytes_silent hn fun i _ _ hout => ?_) (dropBootRead_unread hr)
    rw [inBody_slot hk, bootWaits_iff.mpr hwaits] at hout
    rw [windowByte_slot hk, if_neg (by simpa using hout)]
  · refine ended hboot (bootBytes_silent hn fun i _ _ _ => ?_) (dropBootRead_none hr hw)
    rw [windowByte_slot hk, if_neg (by omega)]
  · refine ended hboot (bootBytes_short hn true false fun i _ => ?_) (dropBootRead_none hr hw)
    simp [bootWaits_false hw, State.windowByte, hres]
  · exact ended hboot (bootBytes_silent hn fun _ _ ho => nomatch ho) (dropBootRead_none hr hw)

/-! ### The end of an internal read (R2, R5) -/

theorem exec_internalReadEnd (r : Requester) (s : State) :
    exec (.internalReadEnd r) s = act (fun s => s.internalRead r) s := rfl

/-- The only read in progress ends, its run's contents handed over. -/
theorem internalRead_alone {s : State} {op : ReadOp} {r : Requester} (hr : s.ctl.reads = [op]) (hop : op.by_ = .internal r)
    (hw : s.ctl.wait = []) (hp : s.ctl.prog = none) (hb : s.ctl.batch = none) :
    s.internalRead r =
      ({ s with ctl := { s.ctl with reads := [] } } : State).readDone r (memBytes s.flash op.run.start op.run.len) := by
  unfold State.internalRead
  rw [hr]
  simp [hop, endRead_alone hr hp hw hb]

/-- The Image Manager's only outstanding read has ended: its check's chunk is digested (R63). -/
theorem checkReadEnded_digests {s : State} {k : Check} (hreads : s.image.reads = [k.check]) (hk : s.image.checks = [k])
    (data : Bytes) :
    s.checkReadEnded data = ({ s with image := { s.image with reads := [] } } : State).given
      (.mk' .image (.digest k.ctx data (chunkLast (s.slot k.sid).mf k.chunk)) .none (.stagingCheck k.check)) := by
  rw [← submitJob_keyless _ _ rfl rfl]
  simp only [State.checkReadEnded, hreads, State.checkOf, State.submitCheckRead, State.modImage, hk, List.findSome?_nil,
    decide_true, List.find?_cons_of_pos]
  rfl

/-- A Supervisor's read for its release check has ended: the chunk is digested (R63). -/
theorem releaseReadEnded_digests {s : State} {m : Master} {c chunk : Nat} {n : SlotNo} {mf : Bytes} {ctx : Option DigestCtx}
    (hread : (s.sup m).read = some c) (hwork : (s.sup m).work = .checking c n mf chunk ctx) (data : Bytes) :
    s.releaseReadEnded m data = (s.modSup m fun x => { x with read := none }).given
      (.mk' .supervision (.digest ctx data (chunkLast mf chunk)) .none (.releaseCheck m c)) := by
  rw [← submitJob_keyless _ _ rfl rfl]
  simp [State.releaseReadEnded, hread, hwork]

/-- A step whose effect ends in a submitted job that names no key. -/
theorem act_given {s t : State} {f : State → State} {j : Job} (hi : s.inbox = []) (h : f s = t.given j)
    (ht : t.inbox = s.inbox ∧ t.pending = s.pending ∧ t.flash = s.flash ∧ t.fuses = s.fuses ∧ t.stat = s.stat) :
    act f s = .next (t.given j).updateStat := by
  obtain ⟨hinbox, hp, hm, hu, hs⟩ := ht
  exact act_calm hi h (hinbox.trans hi) hp hm hu hs

/-- Settles O55. -/
theorem internalReadEndDigestsTheChunk : Obligations.InternalReadEndDigestsTheChunk := by
  intro s op c chunk ctx hi hr hw hp hb
  have handed : ∀ {r : Requester} {t : State} {j : Job}, op.by_ = .internal r →
      ({ s with ctl := { s.ctl with reads := [] } } : State).readDone r (memBytes s.flash op.run.start op.run.len) = t.given j →
      t.inbox = s.inbox ∧ t.pending = s.pending ∧ t.flash = s.flash ∧ t.fuses = s.fuses ∧ t.stat = s.stat →
      exec (.internalReadEnd r) s = .next (t.given j).updateStat := fun hop h ht =>
    (exec_internalReadEnd _ s).trans (act_given hi ((internalRead_alone hr hop hw hp hb).trans h) ht)
  refine ⟨fun i r hop hreads hchecks => ?_, fun m n mf hop hread hwork => ?_⟩
  · exact handed hop (checkReadEnded_digests (s := { s with ctl := { s.ctl with reads := [] } })
      (k := ⟨c, i, r, chunk, ctx⟩) hreads hchecks _) ⟨rfl, rfl, rfl, rfl, rfl⟩
  · exact handed hop (releaseReadEnded_digests (s := { s with ctl := { s.ctl with reads := [] } }) hread hwork _)
      ⟨rfl, rfl, rfl, rfl, rfl⟩

end Sys2Proof.Machine
end

section
/-! How a chain of notices settles, and the end of a sector's erase: O53. -/

namespace Sys2Proof.Machine

/-! ### Chains of notices -/

/-- With the notices `told` waiting `s` settles to `t` by handling `k` of them, whatever is left of the budget. -/
def Settles (k : Nat) (told : List Notice) (s t : State) : Prop :=
  ∀ n, State.settle (n + k) { s with inbox := told } = t

theorem State.with_inbox {s : State} {l : List Notice} (h : s.inbox = l) : { s with inbox := l } = s := by
  subst h
  rfl

theorem Settles.calm {s : State} (h : s.inbox = []) : Settles 0 [] s s := fun n => by
  rw [State.with_inbox h]
  exact settle_calm n h

/-- A notice is handled, what it raises before the rest. -/
theorem Settles.notice {k : Nat} {s t u : State} {x : Notice} {rest raised : List Notice} (hi : s.inbox = [])
    (ht : s.handle x = { t with inbox := raised }) (hu : Settles k (raised ++ rest) t u) :
    Settles (k + 1) (x :: rest) s u := fun n => by
  have hx : State.handle { s with inbox := [] } x = { t with inbox := raised } := by rw [State.with_inbox hi, ht]
  rw [← Nat.add_assoc, settle_next (s := { s with inbox := x :: rest }) _ rfl, hx]
  exact hu n

/-- A step whose notices settle, when no notice waited before it. -/
theorem act_settles {k : Nat} {f : State → State} {s t u : State} {told : List Notice} (hi : s.inbox = [])
    (hf : f s = { t with inbox := told }) (h : Settles k told t u) (hk : k ≤ settleBudget) (hp : u.pending = s.pending)
    (hm : u.flash = s.flash) (hu : u.fuses = s.fuses) (hs : u.stat = s.stat) : act f s = .next u.updateStat := by
  refine act_settled hi ?_ hp hm hu hs
  rw [← Nat.sub_add_cancel hk, hf]
  exact h _

/-- The notices a calm state has after a post. -/
theorem post_calm {s : State} (h : s.inbox = []) (x : Notice) : s.post x = { s with inbox := [x] } := by
  rw [State.post, h, List.nil_append]

/-- With no mount in progress its notice changes nothing. -/
theorem Settles.mountNext {k : Nat} {s u : State} {rest : List Notice} (hi : s.inbox = []) (hm : s.store.mount = none)
    (hu : Settles k rest s u) : Settles (k + 1) (.mountNext :: rest) s u :=
  .notice hi ((mountNext_idle hm).trans (State.with_inbox hi).symm) hu

/-- A notice of the kind that ends by telling mount to go on, with no mount in progress. -/
theorem Settles.beforeMount {k : Nat} {s t u : State} {x : Notice} {rest : List Notice} (hi : s.inbox = [])
    (ht : s.handle x = t.post .mountNext) (hti : t.inbox = []) (hm : t.store.mount = none) (hu : Settles k rest t u) :
    Settles (k + 2) (x :: rest) s u :=
  .notice hi (ht.trans (post_calm hti _)) (.mountNext hti hm hu)

/-! ### The current sector's end (R9) -/

/-- Time that passes for a RUNNING batch and no program (R9). -/
theorem pass_running {s : State} {b : Batch} (hp : s.ctl.prog = none) (hb : s.ctl.batch = some b) (hr : b.state = .running)
    (d : Nat) :
    s.pass d =
      { s with clock := s.clock + d, ctl := { s.ctl with batch := some { b with active := b.active + d } } } := by
  simp only [State.pass, hp, hb, hr, Option.map_none, Option.map_some, if_true]

/-- More members are to come: the next begins with active time 0. -/
theorem decideSector_more {s : State} {b : Batch} {x y : Sector} {more : List Sector} (hb : s.ctl.batch = some b)
    (hm : b.members = x :: y :: more) (ok : Bool) :
    s.decideSector ok = { s with ctl := { s.ctl with
      batch := some { b with members := y :: more, decided := b.decided ++ [(x, ok)], active := 0 } } } := by
  simp [State.decideSector, hb, hm, State.modCtl]

/-- The last member ends the batch. -/
theorem decideSector_last {s : State} {b : Batch} {x : Sector} (hb : s.ctl.batch = some b) (hm : b.members = [x])
    (hd : b.decided = []) (ok : Bool) : s.decideSector ok = s.endBatch [(x, ok)] := by
  simp [State.decideSector, hb, hm, hd]

/-! ### The end of a batch of one (R14, R15) -/

/-- The controller as the batch has ended: a new one gathers from the list, if that is not empty (R14). -/
def FlashCtl.gatherNext (c : FlashCtl) (now : Nat) (next : List Sector) : FlashCtl :=
  { c with
    batch := if next = [] then none else some ⟨.gathering, now + 200, next.take 16, [], 0, 0⟩
    next := next.drop 16 }

/-- A batch ends at an array with nothing else in hand: its members' results are taken, and a new batch gathers. -/
theorem endBatch_alone {s t : State} {decided : List (Sector × Bool)}
    (ht : decided.foldl (fun s d => if d.2 then s.reportErase d.1 true else s.eraseFailed d.1) s = t)
    (hw : t.ctl.wait = []) :
    s.endBatch decided = { t with ctl := t.ctl.gatherNext t.clock (s.ctl.retries decided ++ t.ctl.next) } := by
  have hgather : ∀ next : List Sector,
      (if next.isEmpty then none else
        some ({ state := .gathering, closes := t.clock + 200, members := next.take 16, decided := [], suspends := 0,
                active := 0 } : Batch)) =
      if next = [] then none else some ⟨.gathering, t.clock + 200, next.take 16, [], 0, 0⟩ := by
    intro next
    cases next <;> rfl
  unfold State.endBatch
  simp only [ht, hgather]
  refine arbitrate_of_ctl (FlashCtl.arbitrate_nothing hw ?_)
  intro b hb
  dsimp only [State.modCtl] at hb
  split at hb
  · cases hb
  · cases hb
    exact ⟨rfl, by simp [State.modCtl]⟩

theorem retries_erased (c : FlashCtl) (x : Sector) : c.retries [(x, true)] = [] := rfl

section
variable {s : State} {x : Sector} {f : EraseFor} {failures : Nat} (ho : s.ctl.outstanding = [⟨x, [f], failures⟩])
include ho

/-- A member's first failure puts it at the head of the next-batch list (R15). -/
theorem retries_failed : s.ctl.retries [(x, false)] = if failures = 0 then [x] else [] := by
  by_cases h : failures = 0 <;> simp [FlashCtl.retries, ho, h]

/-- The only outstanding sector is reported to the only request attached to it. -/
theorem reportErase_only (ok : Bool) :
    s.reportErase x ok = ({ s with ctl := { s.ctl with outstanding := [] } } : State).post (.eraseEnded f x ok) := by
  simp [State.reportErase, ho, State.modCtl]

/-- Its first failure is counted (R15). -/
theorem eraseFailed_first (h : failures = 0) :
    s.eraseFailed x = { s with ctl := { s.ctl with outstanding := [⟨x, [f], 1⟩] } } := by
  simp [State.eraseFailed, ho, h, State.modCtl]

/-- Its second retires it (R15). -/
theorem eraseFailed_again (h : failures ≠ 0) (hw : s.ctl.wait = []) :
    s.eraseFailed x =
      (({ s with ctl := { s.ctl with retired := s.ctl.retired ++ [x], outstanding := [] } } : State).post
        (.sectorRetired x)).post (.eraseEnded f x false) := by
  simp [State.eraseFailed, ho, h, State.reportErase, State.refuseHeld, hw, State.modCtl, State.post]

end

/-- A task of the Image Manager after it has heard of a sector (R74). -/
def EraseTask.heard (t : EraseTask) (x : Sector) (ok : Bool) : EraseTask :=
  { t with remaining := t.remaining.erase x, anyRetired := t.anyRetired || !ok }

/-- The only request of the Image Manager hears of one sector, with more to come (R14, R74). -/
theorem imageErased_more {s : State} {task : EraseTask} {x : Sector} (ht : s.image.tasks = [task])
    (hr : task.remaining.erase x ≠ []) (ok : Bool) :
    s.imageErased task.task x ok = s.modImage fun g => { g with tasks := [task.heard x ok] } := by
  simp [State.imageErased, ht, hr, State.modImage, EraseTask.heard]

/-- A submitted write reaches the store and the engine alone: updates of other blocks pass it. -/
theorem writing_modImage (s : State) (w : Write) (g : ImageMgr → ImageMgr) :
    (s.modImage g).writing w = (s.writing w).modImage g := by
  unfold State.writing
  simp only [State.store_modImage]
  split <;> rfl

@[simp] theorem State.image_writing (s : State) (w : Write) : (s.writing w).image = s.image := by
  unfold State.writing
  split <;> rfl

@[simp] theorem State.mount_writing (s : State) (w : Write) : (s.writing w).store.mount = s.store.mount := by
  unfold State.writing
  split <;> rfl

/-- A large sector is retired with the store mounted: its RETIRED record is submitted (R31). -/
theorem noteRetired_image {s : State} {x : Sector} (hx : x.area = .image) (hc : s.store.cond = .mounted) (ht : s.storeTakes) :
    s.noteRetired x =
      ({ s with store := { s.store with retiredList := s.store.retiredList ++ [x] } } : State).writing
        ⟨.retired, 0, retiredPayload (s.store.retiredList ++ [x]), true, .retiredList⟩ := by
  simp only [State.noteRetired, hx, State.modStore]
  rw [if_pos hc]
  exact submitWrite_taken _ _ ht rfl

/-- What the last member of a batch of one leaves as it is decided: a new batch gathers. -/
def State.sectorDone (s : State) (o : List Outstanding) (retired next : List Sector) : State :=
  { s with ctl := ({ s.ctl with outstanding := o, retired := retired } : FlashCtl).gatherNext s.clock next }

section
variable {s : State} {b : Batch} {x : Sector} {f : EraseFor} {failures : Nat} (hi : s.inbox = [])
  (hb : s.ctl.batch = some b) (hm : b.members = [x]) (hd : b.decided = [])
  (ho : s.ctl.outstanding = [⟨x, [f], failures⟩]) (hw : s.ctl.wait = [])
include hi hb hm hd ho hw

theorem decideSector_erased :
    s.decideSector true = { s.sectorDone [] s.ctl.retired s.ctl.next with inbox := [.eraseEnded f x true] } := by
  rw [decideSector_last hb hm hd, endBatch_alone (t := s.reportErase x true) rfl (by rw [reportErase_only ho]; exact hw),
    reportErase_only ho]
  simp [State.sectorDone, State.post, retries_erased, hi, FlashCtl.gatherNext]

theorem decideSector_failed_first (h : failures = 0) :
    s.decideSector false = s.sectorDone [⟨x, [f], 1⟩] s.ctl.retired (x :: s.ctl.next) := by
  rw [decideSector_last hb hm hd, endBatch_alone (t := s.eraseFailed x) rfl (by rw [eraseFailed_first ho h]; exact hw),
    eraseFailed_first ho h, retries_failed ho, if_pos h]
  simp [State.sectorDone, hi, FlashCtl.gatherNext]

theorem decideSector_failed_again (h : failures ≠ 0) :
    s.decideSector false =
      { s.sectorDone [] (s.ctl.retired ++ [x]) s.ctl.next with inbox := [.sectorRetired x, .eraseEnded f x false] } := by
  rw [decideSector_last hb hm hd, endBatch_alone (t := s.eraseFailed x) rfl (by rw [eraseFailed_again ho h hw]; exact hw),
    eraseFailed_again ho h hw, retries_failed ho, if_neg h]
  simp [State.sectorDone, State.post, hi, FlashCtl.gatherNext]

end

/-! ### What hears of it -/

/-- The Image Manager's only request hears of a sector, with more to come. -/
theorem settles_eraseEnded {s : State} {task : EraseTask} {x : Sector} (hi : s.inbox = []) (ht : s.image.tasks = [task])
    (hr : task.remaining.erase x ≠ []) (hm : s.store.mount = none) (ok : Bool) :
    Settles 2 [.eraseEnded (.image task.task) x ok] s (s.modImage fun g => { g with tasks := [task.heard x ok] }) :=
  .beforeMount hi (congrArg (fun t : State => t.post .mountNext) (imageErased_more ht hr ok)) hi hm (.calm hi)

/-- A large sector is retired, and the Image Manager's only request hears of it (R15, R31). -/
theorem settles_sectorRetired {s : State} {task : EraseTask} {x : Sector} (hi : s.inbox = []) (harea : x.area = .image)
    (hc : s.store.cond = .mounted) (hw : s.storeTakes) (ht : s.image.tasks = [task]) (hr : task.remaining.erase x ≠ [])
    (hm : s.store.mount = none) :
    Settles 3 [.sectorRetired x, .eraseEnded (.image task.task) x false] s
      (({ s with store := { s.store with retiredList := s.store.retiredList ++ [x] } } : State).modImage
          (fun g => { g with tasks := [task.heard x false] })
        |>.writing ⟨.retired, 0, retiredPayload (s.store.retiredList ++ [x]), true, .retiredList⟩) := by
  have hnote := noteRetired_image harea hc hw
  have hcalm := (writing_frame { s with store := { s.store with retiredList := s.store.retiredList ++ [x] } }
    ⟨.retired, 0, retiredPayload (s.store.retiredList ++ [x]), true, .retiredList⟩).1.trans hi
  rw [writing_modImage]
  refine .notice hi (hnote.trans (State.with_inbox hcalm).symm) (settles_eraseEnded hcalm ?_ hr ?_ false)
  · rw [State.image_writing]
    exact ht
  · rw [State.mount_writing]
    exact hm

/-! ### The commands -/

theorem exec_sectorEraseEnd {s : State} {x : Sector} {n : Nat} (h : s.ctl.erasing = some (x, n)) (kept : List (Nat × Byte)) :
    exec (.sectorEraseEnd kept) s =
      act (fun t => t.decideSector (decide (n < eraseLimit x) && sectorErased t.flash x)) (s.erasedBy x kept) := by
  simp only [exec, execSectorEraseEnd, h]

theorem exec_eraseTimeLimit {s : State} {x : Sector} {n : Nat} (h : s.ctl.erasing = some (x, n)) (kept : List (Nat × Byte)) :
    exec (.eraseTimeLimit kept) s =
      act (fun t => (t.pass (eraseLimit x - n)).decideSector false) (s.erasedBy x kept) := by
  simp only [exec, execEraseTimeLimit, h]

theorem FlashCtl.erasing_running {c : FlashCtl} {b : Batch} {x : Sector} {rest : List Sector} (hb : c.batch = some b)
    (hr : b.state = .running) (hm : b.members = x :: rest) : c.erasing = some (x, b.active) := by
  simp [FlashCtl.erasing, hb, hr, hm]

section
variable {f : State → State} {u s : State} {b : Batch} {x : Sector} {task : EraseTask} {failures : Nat}
  (hu : u.inbox = []) (hsame : s.pending = u.pending ∧ s.flash = u.flash ∧ s.fuses = u.fuses ∧ s.stat = u.stat)
  (hi : s.inbox = []) (hb : s.ctl.batch = some b) (hm : b.members = [x]) (hd : b.decided = [])
  (ho : s.ctl.outstanding = [⟨x, [.image task.task], failures⟩]) (hw : s.ctl.wait = [])
include hu hsame hi hb hm hd ho hw

/-- A step that ends a batch of one whose member failed for the first time (R15). -/
theorem act_sector_failed_first (hf : f u = s.decideSector false) (h : failures = 0) :
    act f u = .next (s.sectorDone [⟨x, [.image task.task], 1⟩] s.ctl.retired (x :: s.ctl.next)).updateStat := by
  obtain ⟨hp, hfl, hfu, hs⟩ := hsame
  exact act_calm hu (hf.trans (decideSector_failed_first hi hb hm hd ho hw h)) hi hp hfl hfu hs

variable (ht : s.image.tasks = [task]) (hr : task.remaining.erase x ≠ []) (hmount : s.store.mount = none)
include ht hr hmount

/-- A step that ends a batch of one whose member is ERASED (R14). -/
theorem act_sector_erased (hf : f u = s.decideSector true) :
    act f u = .next ((s.sectorDone [] s.ctl.retired s.ctl.next).modImage
      fun g => { g with tasks := [task.heard x true] }).updateStat := by
  obtain ⟨hp, hfl, hfu, hs⟩ := hsame
  exact act_settles hu (hf.trans (decideSector_erased hi hb hm hd ho hw))
    (settles_eraseEnded (s := s.sectorDone [] s.ctl.retired s.ctl.next) hi ht hr hmount true) (by decide) hp hfl hfu hs

/-- A step that ends a batch of one whose member, a large sector, failed for the second time (R15, R31). -/
theorem act_sector_retired (harea : x.area = .image) (hc : s.store.cond = .mounted) (htakes : s.storeTakes)
    (hf : f u = s.decideSector false) (h : failures ≠ 0) :
    act f u = .next (({ s.sectorDone [] (s.ctl.retired ++ [x]) s.ctl.next with
        store := { s.store with retiredList := s.store.retiredList ++ [x] } } : State).modImage
          (fun g => { g with tasks := [task.heard x false] })
        |>.writing ⟨.retired, 0, retiredPayload (s.store.retiredList ++ [x]), true, .retiredList⟩).updateStat := by
  obtain ⟨hp, hfl, hfu, hs⟩ := hsame
  obtain ⟨-, hwp, hwm, hwu, hws⟩ := writing_frame
    (({ s.sectorDone [] (s.ctl.retired ++ [x]) s.ctl.next with
        store := { s.store with retiredList := s.store.retiredList ++ [x] } } : State).modImage
          (fun g => { g with tasks := [task.heard x false] }))
    ⟨.retired, 0, retiredPayload (s.store.retiredList ++ [x]), true, .retiredList⟩
  exact act_settles hu (hf.trans (decideSector_failed_again hi hb hm hd ho hw h))
    (settles_sectorRetired (s := s.sectorDone [] (s.ctl.retired ++ [x]) s.ctl.next) hi harea hc htakes ht hr hmount)
    (by decide) (hwp.trans hp) (hwm.trans hfl) (hwu.trans hfu) (hws.trans hs)

end

/-- The state as the erase time limit stops the erase of the current sector (R9). -/
def State.eraseStopped (s : State) (b : Batch) (x : Sector) (kept : List (Nat × Byte)) : State :=
  { s.erasedBy x kept with
    clock := s.clock + (eraseLimit x - b.active)
    ctl := { s.ctl with batch := some { b with active := b.active + (eraseLimit x - b.active) } } }

theorem pass_eraseStopped {s : State} {b : Batch} (hp : s.ctl.prog = none) (hb : s.ctl.batch = some b)
    (hr : b.state = .running) (x : Sector) (kept : List (Nat × Byte)) :
    (s.erasedBy x kept).pass (eraseLimit x - b.active) = s.eraseStopped b x kept :=
  pass_running (s := s.erasedBy x kept) hp hb hr _

/-- Settles O53: the erase's bytes and the time are in the array and the clock before the sector is decided, and each decision
is one of those above. -/
theorem sectorErasesAreDecided : Obligations.SectorErasesAreDecided := by
  intro s b x rest kept hi hb hrun hmem
  have hx := FlashCtl.erasing_running hb hrun hmem
  have hend := exec_sectorEraseEnd hx kept
  have hlimit := exec_eraseTimeLimit hx kept
  have hstop := fun hp => congrArg (fun t : State => t.decideSector false) (pass_eraseStopped hp hb hrun x kept)
  refine ⟨fun y more hrest => ?_, fun k failures task hrest hd hr hw hp hmount ho ht htask hne => ?_⟩
  · subst hrest
    refine ⟨?_, fun hp => ?_⟩
    · exact hend.trans (act_calm hi (decideSector_more (s := s.erasedBy x kept) hb hmem _) hi rfl rfl rfl rfl)
    · exact hlimit.trans (act_calm hi ((hstop hp).trans
        (decideSector_more (s := s.eraseStopped b x kept) rfl hmem false)) hi rfl rfl rfl rfl)
  · subst hrest htask
    refine ⟨fun herased => ?_, fun h => ⟨fun herased => ?_, ?_⟩, fun h harea hc htakes => ⟨fun herased => ?_, ?_⟩⟩
    · exact hend.trans (act_sector_erased (s := s.erasedBy x kept) hi ⟨rfl, rfl, rfl, rfl⟩ hi hb hmem hd ho hw ht hne hmount
        (congrArg (State.decideSector _) herased))
    · exact hend.trans (act_sector_failed_first (s := s.erasedBy x kept) hi ⟨rfl, rfl, rfl, rfl⟩ hi hb hmem hd ho hw
        (congrArg (State.decideSector _) herased) h)
    · exact hlimit.trans (act_sector_failed_first (s := s.eraseStopped b x kept) hi ⟨rfl, rfl, rfl, rfl⟩ hi rfl hmem hd ho hw
        (hstop hp) h)
    · exact hend.trans (act_sector_retired (s := s.erasedBy x kept) hi ⟨rfl, rfl, rfl, rfl⟩ hi hb hmem hd ho hw ht hne hmount
        harea hc htakes (congrArg (State.decideSector _) herased) h)
    · exact hlimit.trans (act_sector_retired (s := s.eraseStopped b x kept) hi ⟨rfl, rfl, rfl, rfl⟩ hi rfl hmem hd ho hw ht hne
        hmount harea hc htakes (hstop hp) h)

end Sys2Proof.Machine
end

section
/-! What a staged page and the Record Store's begun write make of the end of their program. -/

namespace Sys2Proof.Machine

/-! ### The commands -/

theorem FlashCtl.programming_active {c : FlashCtl} {p : ActiveProg} (hp : c.prog = some p) (hs : p.suspended = false) :
    c.programming = some p := by
  simp [FlashCtl.programming, hp, hs]

theorem exec_programEnd {s : State} {p : ActiveProg} (h : s.ctl.programming = some p) (stuck : Bytes) :
    exec (.programEnd stuck) s =
      act (fun t => t.endProgram (decide (p.active < programLimit) && programGood s.flash p.op.addr p.op.data stuck))
        (s.programmedBy p stuck) := by
  simp only [exec, execProgramEnd, h]

theorem exec_programTimeLimit {s : State} {p : ActiveProg} (h : s.ctl.programming = some p) (stuck : Bytes) :
    exec (.programTimeLimit stuck) s =
      act (fun t => (t.pass (programLimit - p.active)).endProgram false) (s.programmedBy p stuck) := by
  simp only [exec, execProgramTimeLimit, h]

/-- The part as the active program has completed: its bits are in the array, and no program is active (R3, R4). -/
def State.programDone (s : State) (p : ActiveProg) (stuck : Bytes) : State :=
  { s.programmedBy p stuck with ctl := { s.ctl with prog := none } }

/-- The same at the program's time limit. -/
def State.programLate (s : State) (p : ActiveProg) (stuck : Bytes) : State :=
  { s.programDone p stuck with clock := s.clock + (programLimit - p.active) }

section
variable {s : State} {p : ActiveProg} (hi : s.inbox = []) (hw : s.ctl.wait = []) (hb : s.ctl.batch = none)
include hi hw hb

/-- The only operation at the array completes, and its requester is told (R3). -/
theorem endProgram_alone (hp : s.ctl.prog = some p) (ok : Bool) :
    s.endProgram ok = { s with
      ctl := { s.ctl with prog := none }
      inbox := [.programEnded p.op.requester (if ok then .ok else .fault)] } := by
  have h : ({ s with ctl := { s.ctl with prog := none } } : State).arbitrate = { s with ctl := { s.ctl with prog := none } } :=
    arbitrate_of_ctl (FlashCtl.arbitrate_nothing hw (by simp [hb]))
  simp only [State.endProgram, hp]
  exact (congrArg (fun t : State => t.post _) h).trans (post_calm (s := { s with ctl := { s.ctl with prog := none } }) hi _)

variable (hp : s.ctl.prog = some p) (hs : p.suspended = false) {stuck : Bytes} {k : Nat} {u : State}
include hp hs

/-- PROGRAM_END, from what its requester's notice settles to. -/
theorem exec_programEnd_settles {res : ProgResult}
    (hres : (if decide (p.active < programLimit) && programGood s.flash p.op.addr p.op.data stuck then ProgResult.ok
      else .fault) = res)
    (h : Settles k [.programEnded p.op.requester res] (s.programDone p stuck) u) (hk : k ≤ settleBudget)
    (hu : u.pending = s.pending ∧ u.flash = (s.programDone p stuck).flash ∧ u.fuses = s.fuses ∧ u.stat = s.stat) :
    exec (.programEnd stuck) s = .next u.updateStat := by
  obtain ⟨hpend, hflash, hfuses, hstat⟩ := hu
  subst hres
  exact (exec_programEnd (FlashCtl.programming_active hp hs) stuck).trans
    (act_settles hi (endProgram_alone (s := s.programmedBy p stuck) hi hw hb hp _) h hk hpend hflash hfuses hstat)

/-- PROGRAM_TIME_LIMIT, from what its requester's notice settles to. -/
theorem exec_programTimeLimit_settles
    (h : Settles k [.programEnded p.op.requester .fault] (s.programLate p stuck) u) (hk : k ≤ settleBudget)
    (hu : u.pending = s.pending ∧ u.flash = (s.programDone p stuck).flash ∧ u.fuses = s.fuses ∧ u.stat = s.stat) :
    exec (.programTimeLimit stuck) s = .next u.updateStat := by
  obtain ⟨hpend, hflash, hfuses, hstat⟩ := hu
  have hpass : (s.programmedBy p stuck).pass (programLimit - p.active) =
      { s.programmedBy p stuck with
        clock := s.clock + (programLimit - p.active)
        ctl := { s.ctl with prog := some { p with active := p.active + (programLimit - p.active) } } } := by
    simp [State.pass, State.programmedBy, hp, hs, hb]
  have hended := (congrArg (fun t : State => t.endProgram false) hpass).trans
    (endProgram_alone (s := { s.programmedBy p stuck with
        clock := s.clock + (programLimit - p.active)
        ctl := { s.ctl with prog := some { p with active := p.active + (programLimit - p.active) } } }) hi hw hb rfl false)
  exact (exec_programTimeLimit (FlashCtl.programming_active hp hs) stuck).trans
    (act_settles hi hended h hk hpend hflash hfuses hstat)

end

/-! ### A request's answer (R183) -/

theorem live_of_port {s : State} {r : Req} (hw : (s.port r.port).req = .working) (hn : (s.port r.port).no = r.no) :
    s.live r = true := by
  simp [State.live, hw, hn]

theorem answer_live {s : State} {r : Req} (h : s.live r = true) (st : Status) (payload : Bytes) :
    s.answer r st payload = s.modPort r.port fun x =>
      { x with req := .answered, answer := some ⟨st, x.tag, payload⟩, flags := x.flags ||| flagAnswer, work := .none } := by
  unfold State.answer
  rw [if_pos h]

theorem workOf_live {s : State} {r : Req} (h : s.live r = true) : s.workOf r = (s.port r.port).work := by
  unfold State.workOf
  rw [if_pos h]

@[simp] theorem State.image_answer (s : State) (r : Req) (st : Status) (payload : Bytes) :
    (s.answer r st payload).image = s.image := by
  unfold State.answer
  split <;> rfl

/-! ### A slot that is changed (R70) -/

/-- A changed slot entry reaches the slots, and the event flags. -/
theorem setSlot_ports (s : State) (i : SlotId) (e : SlotEntry) :
    ∃ ports, s.setSlot i e = { s.putSlot i e with ports := ports } := by
  unfold State.setSlot State.raiseSlot
  dsimp only
  split
  · exact ⟨_, rfl⟩
  · split
    · exact ⟨_, rfl⟩
    · exact ⟨_, rfl⟩

/-- What a changed slot entry leaves of the notices, the queue, the array, the fuses and STAT. -/
theorem setSlot_frame (s : State) (i : SlotId) (e : SlotEntry) :
    (s.setSlot i e).inbox = s.inbox ∧ (s.setSlot i e).pending = s.pending ∧ (s.setSlot i e).flash = s.flash ∧
      (s.setSlot i e).fuses = s.fuses ∧ (s.setSlot i e).stat = s.stat := by
  obtain ⟨ports, h⟩ := setSlot_ports s i e
  rw [h]
  exact ⟨rfl, rfl, rfl, rfl, rfl⟩

@[simp] theorem State.live_raise (s : State) (m : Master) (flag : BitVec 8) (r : Req) : (s.raise m flag).live r = s.live r := by
  obtain ⟨port, no⟩ := r
  cases m <;> cases port <;> rfl

@[simp] theorem State.live_setSlot (s : State) (i : SlotId) (e : SlotEntry) (r : Req) : (s.setSlot i e).live r = s.live r := by
  have hput : (s.putSlot i e).live r = s.live r := rfl
  unfold State.setSlot State.raiseSlot
  dsimp only
  split
  · exact hput
  · split <;> simp only [State.live_raise, hput]

@[simp] theorem State.live_writing (s : State) (w : Write) (r : Req) : (s.writing w).live r = s.live r := by
  unfold State.writing
  split <;> rfl

/-- A slot becomes FAILED at once, its write submitted (R70, R76). -/
theorem failSlot_writing {s : State} (h : s.storeTakes) (i : SlotId) (reason : Reason) :
    s.failSlot i reason = (s.setSlot i ((s.slot i).failedWith reason)).writing
      ⟨.slot, i.id, ((s.slot i).failedWith reason).payload, true, .slotTaken i false⟩ := by
  obtain ⟨ports, hports⟩ := setSlot_ports s i ((s.slot i).failedWith reason)
  have htakes : (s.setSlot i ((s.slot i).failedWith reason)).storeTakes := by rw [hports]; exact h
  exact submitWrite_taken _ _ htakes rfl

/-! ### The last page of a STAGE-DATA (R75, R76) -/

@[simp] theorem slot_dropPage (s : State) (pages : List StagePage) (i : SlotId) :
    (s.modImage fun g => { g with pages := pages }).slot i = s.slot i := rfl

theorem submitPage_none {s : State} (h : s.image.pages = []) : s.submitPage = s := by
  simp only [State.submitPage, h]

/-- The request still waits for its slot's pages. -/
theorem workOf_dropPage {s : State} {r : Req} {w : Work} (hlive : s.live r = true) (hwork : (s.port r.port).work = w)
    (pages : List StagePage) : (s.modImage fun g => { g with pages := pages }).workOf r = w :=
  (workOf_live (s := s.modImage fun g => { g with pages := pages }) hlive).trans hwork

section
variable {s : State} {pg : StagePage} (hpages : s.image.pages = [pg]) (hstate : (s.slot pg.sid).state = .loading)
  (howner : (s.slot pg.sid).owner = some pg.req.port) (hlive : s.live pg.req = true)
  (hwork : (s.port pg.req.port).work = .stageData pg.sid)
include hpages hstate howner hlive hwork

/-- The page is the last: the bytes received rise, and the request is answered. -/
theorem pageEnded_last (hlast : pg.last = true) :
    s.pageEnded .ok =
      ((s.modImage fun g => { g with pages := [] }).putSlot pg.sid
        { s.slot pg.sid with received := (s.slot pg.sid).received + pg.total }).answer pg.req .ok
          (le 4 ((s.slot pg.sid).received + pg.total)) := by
  have hsession := workOf_dropPage hlive hwork []
  simp only [State.pageEnded, hpages, slot_dropPage, hstate, howner, hsession, hlast, decide_true, Bool.and_self, if_true]
  rw [answer_live (by exact hlive)]
  rfl

/-- The program was a FAULT: the slot becomes FAILED(FLASH), and the request is answered. -/
theorem pageEnded_fault (htakes : s.storeTakes) :
    s.pageEnded .fault =
      (((s.modImage fun g => { g with pages := [] }).setSlot pg.sid ((s.slot pg.sid).failedWith .flash)).writing
        ⟨.slot, pg.sid.id, ((s.slot pg.sid).failedWith .flash).payload, true, .slotTaken pg.sid false⟩).answer pg.req
          .flashFault [0] := by
  have hsession := workOf_dropPage hlive hwork []
  obtain ⟨ports, hports⟩ := setSlot_ports (s.modImage fun g => { g with pages := [] }) pg.sid
    (((s.modImage fun g => { g with pages := [] }).slot pg.sid).failedWith .flash)
  simp only [State.pageEnded, hpages, slot_dropPage, hstate, howner, hsession, decide_true, Bool.and_self, if_true, reduceCtorEq,
    if_false]
  have hsame : ((s.modImage fun g => { g with pages := [] }).modImage fun g =>
      { g with pages := g.pages.filter fun q => !decide (q.req = pg.req) }) = s.modImage fun g => { g with pages := [] } := rfl
  rw [hsame, failSlot_writing (by exact htakes)]
  refine submitPage_none ?_
  rw [State.refuse, State.image_answer, State.image_writing, hports]
  rfl
end

/-- A page's end tells no other block anything. -/
theorem settles_page {s u : State} {res : ProgResult} (hi : s.inbox = []) (h : s.pageEnded res = u) (hu : u.inbox = []) :
    Settles 1 [.programEnded .image res] s u :=
  .notice hi (h.trans (State.with_inbox hu).symm) (.calm hu)

/-! ### Programs of the Record Store (R5, R6) -/

/-- Nothing is at the array, and no sector has an erase outstanding. -/
structure FlashCtl.Bare (c : FlashCtl) : Prop where
  reads : c.reads = []
  prog : c.prog = none
  batch : c.batch = none
  outstanding : c.outstanding = []

/-- A program that touches no retired sector starts at once at a bare array. -/
theorem submitProgram_bare {s : State} (h : s.ctl.Bare) {op : ProgOp} (hret : s.ctl.touchesRetired op.run = false) :
    s.submitProgram op = { s with ctl := { s.ctl with prog := some ⟨op, 0, false⟩ } } := by
  have hfree : s.ctl.activity = .free := by
    rw [FlashCtl.activity_idle (by simp [h.batch]) (by simp [h.prog]), h.reads]; rfl
  simp [State.submitProgram, hret, State.modCtl, FlashCtl.arriveProgram, FlashCtl.held, h.outstanding, hfree, FlashCtl.start]

/-- The begun write goes on with a program. -/
def State.goesOn (s : State) (a : ActiveWrite) (addr : Nat) (data : Bytes) : State :=
  { s with
    store := { s.store with cur := some a, progs := [⟨addr, data, .write⟩] }
    ctl := { s.ctl with prog := some ⟨⟨.store, addr, data⟩, 0, false⟩ } }

/-- With no program of the store outstanding the begun write's next one is submitted. -/
theorem pushProg_goesOn {s : State} (hprogs : s.store.progs = []) (hbare : s.ctl.Bare) {addr : Nat} {data : Bytes}
    (hret : s.ctl.touchesRetired ⟨addr, data.length⟩ = false) (a : ActiveWrite) :
    (s.setCur (some a)).pushProg addr data .write = s.goesOn a addr data := by
  have hsub := submitProgram_bare
    (s := { s with store := { s.store with cur := some a, progs := [⟨addr, data, .write⟩] } }) (op := ⟨.store, addr, data⟩)
    hbare hret
  simp only [State.pushProg, State.setCur, State.modStore, hprogs, List.isEmpty_nil, if_true, List.nil_append]
  exact hsub

/-- The end of the only outstanding program of the store, one of the begun write. -/
theorem storeProgEnded_write {s : State} {q : StoreProg} (hprogs : s.store.progs = [q]) (hq : q.for_ = .write)
    (hm : s.store.mount = none) (res : ProgResult) :
    s.storeProgEnded res =
      (s.modStore fun st => { st with progs := [] }).writeProgEnded (decide (res = .ok)) := by
  have hnote := noteSuperseded_idle (s := s.modStore fun st => { st with progs := [] }) hm q
  simp only [State.storeProgEnded, State.popProg, hprogs, hnote, ite_self, hq]

/-- What the end of that program settles to, from what the begun write makes of it. -/
theorem settles_storeProg {k : Nat} {s t u : State} {q : StoreProg} {res : ProgResult} {told : List Notice} (hi : s.inbox = [])
    (hprogs : s.store.progs = [q]) (hq : q.for_ = .write) (hm : s.store.mount = none)
    (ht : (s.modStore fun st => { st with progs := [] }).writeProgEnded (decide (res = .ok)) = { t with inbox := told })
    (hu : Settles k (told ++ [.mountNext]) t u) : Settles (k + 1) [.programEnded .store res] s u := by
  have hend := (storeProgEnded_write hprogs hq hm res).trans ht
  refine .notice hi (congrArg (fun t : State => t.post .mountNext) hend) ?_
  rwa [List.append_nil]

/-! ### The begun write (R24, R27) -/

/-- The pages a record's payload still has to be programmed in, as its header or one of them has been. -/
def ActiveWrite.left (a : ActiveWrite) : List (Nat × Bytes) :=
  if a.step = .header then pagesOf 8 (storeAddr a.sector a.offset + 16) (padded a.write.payload) else a.pages

section
variable {s : State} {a : ActiveWrite} (hcur : s.store.cur = some a)
include hcur

/-- After the record's header or a page of its payload the next page or the tag is programmed. -/
theorem writeProgEnded_payload (hstep : a.step = .header ∨ a.step = .payload) :
    s.writeProgEnded true = s.nextPage { a with pages := a.left } := by
  obtain h | h := hstep
  · simp [State.writeProgEnded, hcur, h, ActiveWrite.left]
  · have hleft : a.left = a.pages := by simp [ActiveWrite.left, h]
    rw [hleft]
    show s.writeProgEnded true = s.nextPage a
    simp [State.writeProgEnded, hcur, h]

variable (hprogs : s.store.progs = []) (hbare : s.ctl.Bare)
include hprogs hbare

theorem writeProgEnded_page (hstep : a.step = .header ∨ a.step = .payload) {page : Nat × Bytes} {rest : List (Nat × Bytes)}
    (hleft : a.left = page :: rest) (hret : s.ctl.touchesRetired ⟨page.1, page.2.length⟩ = false) :
    s.writeProgEnded true = s.goesOn { a with step := .payload, pages := rest } page.1 page.2 := by
  rw [writeProgEnded_payload hcur hstep, hleft]
  exact pushProg_goesOn hprogs hbare hret _

theorem writeProgEnded_tag (hstep : a.step = .header ∨ a.step = .payload) (hleft : a.left = [])
    (hret : s.ctl.touchesRetired
      ⟨storeAddr a.sector a.offset + 16 + roundUnits a.write.payload.length, a.tag.length⟩ = false) :
    s.writeProgEnded true = s.goesOn { a with step := .tagProgram, pages := [] }
      (storeAddr a.sector a.offset + 16 + roundUnits a.write.payload.length) a.tag := by
  rw [writeProgEnded_payload hcur hstep, hleft]
  exact pushProg_goesOn hprogs hbare hret _

/-- After the tag the record's state becomes VALID. -/
theorem writeProgEnded_valid (hstep : a.step = .tagProgram)
    (hret : s.ctl.touchesRetired ⟨storeAddr a.sector a.offset + 1, 1⟩ = false) :
    s.writeProgEnded true = s.goesOn { a with step := .valid } (storeAddr a.sector a.offset + 1) [recValid] := by
  simp only [State.writeProgEnded, hcur, hstep, if_true]
  exact pushProg_goesOn hprogs hbare hret _

/-- A fault in steps 4 to 7 has the record abandoned (R27). -/
theorem writeProgEnded_abandon
    (hstep : a.step = .header ∨ a.step = .payload ∨ a.step = .tagProgram ∨ a.step = .valid)
    (hret : s.ctl.touchesRetired ⟨storeAddr a.sector a.offset + 1, 1⟩ = false) :
    s.writeProgEnded false = s.goesOn { a with step := .abandon } (storeAddr a.sector a.offset + 1) [recSuperseded] := by
  have habandon : s.writeProgEnded false = s.abandonWrite a := by
    obtain h | h | h | h := hstep <;> simp [State.writeProgEnded, hcur, h]
  rw [habandon]
  exact pushProg_goesOn hprogs hbare hret _

/-- The mirror and the sector's VALID bytes with the record current. -/
def State.recordMade (s : State) (a : ActiveWrite) : State :=
  s.modStore fun st => { st with
    mirror := (st.mirror.filter fun x => !(decide (x.type = a.write.type) && decide (x.id = a.write.id))) ++ [a.found.mirror]
    sectors := st.sectors.modify a.sector fun x => { x with valid := x.valid + recordSize a.write.payload.length } }

/-- After VALID the record is current and reported DURABLE, and the one it replaced is programmed SUPERSEDED. -/
theorem writeProgEnded_current (hi : s.inbox = []) (hm : s.store.mount = none) (hstep : a.step = .valid) {o : MirrorEntry}
    (ho : s.mirrorAt a.write.type a.write.id = some o)
    (hret : s.ctl.touchesRetired ⟨storeAddr o.sector o.offset + 1, 1⟩ = false) :
    s.writeProgEnded true =
      { (s.recordMade a).goesOn { a with step := .supersede, old := some o } (storeAddr o.sector o.offset + 1)
          [recSuperseded] with
        inbox := [.writeResult a.write .durable] } := by
  have hcurrent : s.writeProgEnded true = s.makeCurrent a := by simp [State.writeProgEnded, hcur, hstep]
  have hposted := post_calm (s := s.recordMade a) hi (.writeResult a.write .durable)
  have hmade : (((s.modStore fun st => { st with
      mirror := (st.mirror.filter fun x => !(decide (x.type = a.write.type) && decide (x.id = a.write.id))) ++
        [a.found.mirror] }).modSector a.sector fun v => { v with valid := v.valid + a.found.mirror.size }).post
          (.writeResult a.write .durable)) = { s.recordMade a with inbox := [.writeResult a.write .durable] } := hposted
  rw [hcurrent, State.makeCurrent, ho, modMount_idle hm]
  dsimp only
  rw [hmade]
  exact pushProg_goesOn (s := { s.recordMade a with inbox := [.writeResult a.write .durable] })
    (data := [recSuperseded]) hprogs hbare hret _

end

/-- After the SUPERSEDED program, whatever its result, the replaced record's bytes are VALID no more and the write has ended. -/
theorem writeProgEnded_superseded {s t : State} {a : ActiveWrite} {o : MirrorEntry} (hcur : s.store.cur = some a)
    (hstep : a.step = .supersede) (ho : a.old = some o)
    (ht : (s.modSector o.sector fun v => { v with valid := v.valid - o.size }).victimSettled = t) (hti : t.inbox = [])
    (ok : Bool) :
    s.writeProgEnded ok = { t.setCur none with inbox := [.reclaimTest, .writeEnded a.write .durable] } := by
  have hposted := congrArg (fun u : State => u.endWrite a.write .durable) (post_calm hti .reclaimTest)
  simp only [State.writeProgEnded, hcur, hstep, ho, ht]
  exact hposted

/-! ### What hears of the begun write (R24, R28, R112, R178) -/

theorem retryMet_none {s : State} (h : s.store.retry = []) (w : Write) : s.retryMet w = s := by
  unfold State.retryMet
  split
  · rfl
  · simp only [State.modStore, h, List.filter_nil]
    rw [← h]

/-- The settings a DURABLE settings write carries take effect (R112). -/
def CredMgr.settled (c : CredMgr) (owner : Bool) (v : Settings) : CredMgr :=
  if owner then { c with ownerSettings := some v } else { c with factorySettings := some v }

theorem writeResult_settings {s : State} {w : Write} {owner : Bool} {v : Settings} {r : Req}
    (hw : w.for_ = .settings owner v r) (hown : owner = true → s.creds.lifecycle = .owned) (hretry : s.store.retry = []) :
    s.writeResult w .durable = (s.modCreds fun c => c.settled owner v).answer r .ok [] := by
  simp only [State.writeResult, if_true, retryMet_none hretry, hw, State.settingsWritten]
  cases owner with
  | true => rw [if_pos rfl, if_pos (hown rfl)]; rfl
  | false => rfl

/-- The end of a settings write, with nothing behind it. -/
theorem writeEnded_settings {s : State} {w : Write} {owner : Bool} {v : Settings} {r : Req}
    (hw : w.for_ = .settings owner v r) (ht : w.type ≠ .slot) (hcur : s.store.cur = none) (hwrites : s.store.writes = [])
    (hretry : s.store.retry = []) : s.writeEnded w .durable = s.post .wipeTest := by
  have hbegin : s.beginNext = s := by simp only [State.beginNext, hcur, hwrites]
  simp [State.writeEnded, hbegin, hw, ht, WriteFor.choiceMaster, submitRetries_none hretry]

/-- An ended settings write with nothing behind it, a reclaim in progress and no removal phase: no block does anything more. -/
theorem settles_settingsEnded {s : State} {w : Write} {owner : Bool} {v : Settings} {r : Req} (hi : s.inbox = [])
    (hm : s.store.mount = none) (hw : w.for_ = .settings owner v r) (ht : w.type ≠ .slot) (hcur : s.store.cur = none)
    (hwrites : s.store.writes = []) (hretry : s.store.retry = []) (hreclaim : s.store.reclaim ≠ none)
    (hwipe : s.creds.wipe ≠ .removal) :
    Settles 5 [.reclaimTest, .writeEnded w .durable, .mountNext] s s := by
  have hended : s.handle (.writeEnded w .durable) = { s with inbox := [.wipeTest, .mountNext] } := by
    have hpost := (writeEnded_settings hw ht hcur hwrites hretry).trans (post_calm hi .wipeTest)
    exact congrArg (fun t : State => t.post .mountNext) hpost
  refine .notice hi ((testReclaim_busy hreclaim).trans (State.with_inbox hi).symm) (.notice hi hended ?_)
  refine .notice hi ((wipeTest_idle hwipe).trans (State.with_inbox hi).symm) ?_
  exact .mountNext hi hm (.mountNext hi hm (.calm hi))

/-! ### The victim of a reclaim that waited (R29, R30) -/

/-- An erase request for one sector at a bare array gathers a batch of it (R7). -/
theorem requestErase_bare {s : State} (h : s.ctl.Bare) {x : Sector} (hx : x ∉ s.ctl.retired) (f : EraseFor) :
    s.requestErase f [x] = { s with ctl := { s.ctl with
      outstanding := [⟨x, [f], 0⟩]
      batch := some ⟨.gathering, s.clock + 200, [x], [], 0, 0⟩ } } := by
  simp [State.requestErase, State.requestErase1, hx, h.outstanding, State.modCtl, FlashCtl.place, h.batch]

/-- The reclaim's victim with its erase requested and gathering. -/
def State.victimErasing (s : State) (x : Reclaim) : State :=
  { s with
    store := { s.store with reclaim := some { x with step := .erasing } }
    ctl := { s.ctl with
      outstanding := [⟨storeSector x.victim, [.reclaim], 0⟩]
      batch := some ⟨.gathering, s.clock + 200, [storeSector x.victim], [], 0, 0⟩ } }

theorem victimSettled_erasing {s : State} {x : Reclaim} (hr : s.store.reclaim = some x) (hs : x.step = .settling)
    (hprogs : s.store.progs = []) (hbare : s.ctl.Bare) (hx : storeSector x.victim ∉ s.ctl.retired) :
    s.victimSettled = s.victimErasing x := by
  have hinto : s.progInto x.victim = false := by simp [State.progInto, hprogs]
  have hsettled : s.victimSettled = s.eraseVictim x := by simp only [State.victimSettled, hr, hs, if_true]
  rw [hsettled, eraseVictim_erasing hinto]
  exact requestErase_bare (s := s.setReclaim (some { x with step := .erasing })) hbare hx .reclaim

/-! ### The commands, for a program of the begun write -/

/-- The part as the store's only program has completed: it is off the store's list. -/
def State.storeDone (s : State) (p : ActiveProg) (stuck : Bytes) : State :=
  (s.programDone p stuck).modStore fun st => { st with progs := [] }

/-- The same at the program's time limit. -/
def State.storeLate (s : State) (p : ActiveProg) (stuck : Bytes) : State :=
  (s.programLate p stuck).modStore fun st => { st with progs := [] }

section
variable {s : State} {p : ActiveProg} {q : StoreProg} {stuck : Bytes} (hi : s.inbox = []) (hw : s.ctl.wait = [])
  (hb : s.ctl.batch = none) (hp : s.ctl.prog = some p) (hs : p.suspended = false) (hreq : p.op.requester = .store)
  (hprogs : s.store.progs = [q]) (hq : q.for_ = .write) (hm : s.store.mount = none)
include hi hw hb hp hs hreq hprogs hq hm

/-- PROGRAM_END, from what the begun write makes of the result and what that settles to. -/
theorem exec_programEnd_store {res : ProgResult} {k : Nat} {t u : State} {told : List Notice}
    (hres : (if decide (p.active < programLimit) && programGood s.flash p.op.addr p.op.data stuck then ProgResult.ok
      else .fault) = res)
    (ht : (s.storeDone p stuck).writeProgEnded (decide (res = .ok)) = { t with inbox := told })
    (h : Settles k (told ++ [.mountNext]) t u) (hk : k + 1 ≤ settleBudget)
    (hu : u.pending = s.pending ∧ u.flash = (s.programDone p stuck).flash ∧ u.fuses = s.fuses ∧ u.stat = s.stat) :
    exec (.programEnd stuck) s = .next u.updateStat := by
  have hsettles := settles_storeProg (s := s.programDone p stuck) hi hprogs hq hm ht h
  rw [← hreq] at hsettles
  exact exec_programEnd_settles hi hw hb hp hs hres hsettles hk hu

variable {a : ActiveWrite} {addr : Nat} {data : Bytes}

/-- PROGRAM_END, good, after which the begun write goes on with its next program. -/
theorem exec_programEnd_goesOn
    (good : p.active < programLimit ∧ programGood s.flash p.op.addr p.op.data stuck = true)
    (ht : (s.storeDone p stuck).writeProgEnded true = (s.storeDone p stuck).goesOn a addr data) :
    exec (.programEnd stuck) s = .next ((s.storeDone p stuck).goesOn a addr data).updateStat := by
  have hcalm : ((s.storeDone p stuck).goesOn a addr data).inbox = [] := hi
  obtain ⟨hactive, hgood⟩ := good
  exact exec_programEnd_store hi hw hb hp hs hreq hprogs hq hm (res := .ok) (by simp [hactive, hgood])
    (ht.trans (State.with_inbox hcalm).symm) (.mountNext hcalm hm (.calm hcalm)) (by decide) ⟨rfl, rfl, rfl, rfl⟩

/-- PROGRAM_TIME_LIMIT, after which the begun write goes on with its next program. -/
theorem exec_programTimeLimit_goesOn
    (ht : (s.storeLate p stuck).writeProgEnded false = (s.storeLate p stuck).goesOn a addr data) :
    exec (.programTimeLimit stuck) s = .next ((s.storeLate p stuck).goesOn a addr data).updateStat := by
  have hcalm : ((s.storeLate p stuck).goesOn a addr data).inbox = [] := hi
  have hsettles := settles_storeProg (s := s.programLate p stuck) (res := .fault) hi hprogs hq hm
    (ht.trans (State.with_inbox hcalm).symm) (.mountNext hcalm hm (.calm hcalm))
  rw [← hreq] at hsettles
  exact exec_programTimeLimit_settles hi hw hb hp hs hsettles (by decide) ⟨rfl, rfl, rfl, rfl⟩

end

end Sys2Proof.Machine
end

section
/-! PROGRAM_END and PROGRAM_TIME_LIMIT of a staged page and of the Record Store's begun write: O52. -/

namespace Sys2Proof.Machine

section
variable {s : State} {p : ActiveProg} {pg : StagePage} {stuck : Bytes} (hi : s.inbox = []) (hw : s.ctl.wait = [])
  (hb : s.ctl.batch = none) (hp : s.ctl.prog = some p) (hs : p.suspended = false) (hreq : p.op.requester = .image)
  (hpages : s.image.pages = [pg]) (hstate : (s.slot pg.sid).state = .loading)
  (howner : (s.slot pg.sid).owner = some pg.req.port) (hlive : s.live pg.req = true)
  (hwork : (s.port pg.req.port).work = .stageData pg.sid)
include hi hw hb hp hs hreq hpages hstate howner hlive hwork

/-- PROGRAM_END, good, of the last page of a STAGE_DATA (R75). -/
theorem exec_programEnd_lastPage
    (good : p.active < programLimit ∧ programGood s.flash p.op.addr p.op.data stuck = true) (hlast : pg.last = true) :
    exec (.programEnd stuck) s =
      .next ((((s.programDone p stuck).modImage fun g => { g with pages := [] }).putSlot pg.sid
        { s.slot pg.sid with received := (s.slot pg.sid).received + pg.total }).modPort pg.req.port fun x =>
          { x with req := .answered, answer := some ⟨.ok, x.tag, le 4 ((s.slot pg.sid).received + pg.total)⟩,
                   flags := x.flags ||| flagAnswer, work := .none }).updateStat := by
  obtain ⟨hactive, hgood⟩ := good
  have hended := (pageEnded_last (s := s.programDone p stuck) hpages hstate howner hlive hwork hlast).trans
    (answer_live (by exact hlive) _ _)
  have hsettles := settles_page (s := s.programDone p stuck) hi hended hi
  rw [← hreq] at hsettles
  exact exec_programEnd_settles hi hw hb hp hs (by simp [hactive, hgood]) hsettles (by decide) ⟨rfl, rfl, rfl, rfl⟩

/-- PROGRAM_TIME_LIMIT of a page of a STAGE_DATA (R76). -/
theorem exec_programTimeLimit_page (htakes : s.storeTakes) :
    exec (.programTimeLimit stuck) s =
      .next (((((s.programLate p stuck).modImage fun g => { g with pages := [] }).setSlot pg.sid
        ((s.slot pg.sid).failedWith .flash)).writing
          ⟨.slot, pg.sid.id, ((s.slot pg.sid).failedWith .flash).payload, true, .slotTaken pg.sid false⟩).modPort
            pg.req.port fun x =>
              { x with req := .answered, answer := some ⟨.flashFault, x.tag, [0]⟩, flags := x.flags ||| flagAnswer,
                       work := .none }).updateStat := by
  obtain ⟨hci, hcp, hcm, hcu, hcs⟩ := setSlot_frame ((s.programLate p stuck).modImage fun g => { g with pages := [] }) pg.sid
    ((s.slot pg.sid).failedWith .flash)
  obtain ⟨hwi, hwp, hwm, hwu, hws⟩ := writing_frame (((s.programLate p stuck).modImage fun g => { g with pages := [] }).setSlot
    pg.sid ((s.slot pg.sid).failedWith .flash))
    ⟨.slot, pg.sid.id, ((s.slot pg.sid).failedWith .flash).payload, true, .slotTaken pg.sid false⟩
  have hended := (pageEnded_fault (s := s.programLate p stuck) hpages hstate howner hlive hwork htakes).trans
    (answer_live (by rw [State.live_writing, State.live_setSlot]; exact hlive) _ _)
  have hsettles := settles_page (s := s.programLate p stuck) hi hended (hwi.trans (hci.trans hi))
  rw [← hreq] at hsettles
  exact exec_programTimeLimit_settles hi hw hb hp hs hsettles (by decide)
    ⟨hwp.trans hcp, hwm.trans hcm, hwu.trans hcu, hws.trans hcs⟩

end

/-- The settings of a DURABLE settings write taken into effect, and its request answered OK (R112). -/
def State.settingsHeard (s : State) (owner : Bool) (v : Settings) (r : Req) : State :=
  (s.modCreds fun c => c.settled owner v).modPort r.port fun x =>
    { x with req := .answered, answer := some ⟨.ok, x.tag, []⟩, flags := x.flags ||| flagAnswer, work := .none }

theorem settingsHeard_goesOn (s : State) (owner : Bool) (v : Settings) (r : Req) (a : ActiveWrite) (addr : Nat) (data : Bytes) :
    (s.goesOn a addr data).settingsHeard owner v r = (s.settingsHeard owner v r).goesOn a addr data := rfl

theorem settingsHeard_frame (s : State) (owner : Bool) (v : Settings) (r : Req) :
    (s.settingsHeard owner v r).pending = s.pending ∧ (s.settingsHeard owner v r).flash = s.flash ∧
      (s.settingsHeard owner v r).fuses = s.fuses ∧ (s.settingsHeard owner v r).stat = s.stat :=
  ⟨rfl, rfl, rfl, rfl⟩

theorem settles_settingsDurable {s : State} {w : Write} {owner : Bool} {v : Settings} {r : Req} (hi : s.inbox = [])
    (hm : s.store.mount = none) (hfor : w.for_ = .settings owner v r) (hown : owner = true → s.creds.lifecycle = .owned)
    (hretry : s.store.retry = []) (hlive : s.live r = true) :
    Settles 2 [.writeResult w .durable, .mountNext] s (s.settingsHeard owner v r) := by
  have hcalm : (s.settingsHeard owner v r).inbox = [] := hi
  have hheard : s.writeResult w .durable = s.settingsHeard owner v r :=
    (writeResult_settings hfor hown hretry).trans (answer_live (s := s.modCreds fun c => c.settled owner v) hlive .ok [])
  exact .notice hi (hheard.trans (State.with_inbox hcalm).symm) (.mountNext hcalm hm (.calm hcalm))

/-- The bytes of a replaced record are VALID in its sector no more (R24). -/
def State.replacedGone (s : State) (o : MirrorEntry) : State :=
  s.modSector o.sector fun v => { v with valid := v.valid - o.size }

section
variable {s : State} {p : ActiveProg} {q : StoreProg} {stuck : Bytes} (hi : s.inbox = []) (hw : s.ctl.wait = [])
  (hb : s.ctl.batch = none) (hp : s.ctl.prog = some p) (hs : p.suspended = false) (hreq : p.op.requester = .store)
  (hprogs : s.store.progs = [q]) (hq : q.for_ = .write) (hm : s.store.mount = none)
  {a : ActiveWrite} {owner : Bool} {v : Settings} {r : Req} {o : MirrorEntry}
  (hcur : s.store.cur = some a) (hfor : a.write.for_ = .settings owner v r)
include hi hw hb hp hs hreq hprogs hq hm hcur hfor

/-- PROGRAM_END, good, of the VALID state of a settings record: its settings take effect and its request is answered. -/
theorem exec_programEnd_settings
    (good : p.active < programLimit ∧ programGood s.flash p.op.addr p.op.data stuck = true)
    (hbare : (s.storeDone p stuck).ctl.Bare) (hstep : a.step = .valid) (hown : owner = true → s.creds.lifecycle = .owned)
    (hretry : s.store.retry = []) (hlive : s.live r = true)
    (ho : s.mirrorAt a.write.type a.write.id = some o)
    (hret : s.ctl.touchesRetired ⟨storeAddr o.sector o.offset + 1, 1⟩ = false) :
    exec (.programEnd stuck) s =
      .next ((((s.storeDone p stuck).recordMade a).settingsHeard owner v r).goesOn { a with step := .supersede, old := some o }
        (storeAddr o.sector o.offset + 1) [recSuperseded]).updateStat := by
  obtain ⟨hactive, hgood⟩ := good
  have hcurrent := writeProgEnded_current (s := s.storeDone p stuck) hcur rfl hbare hi hm hstep ho hret
  have hheard : Settles 2 [.writeResult a.write .durable, .mountNext]
      (((s.storeDone p stuck).recordMade a).goesOn { a with step := .supersede, old := some o }
        (storeAddr o.sector o.offset + 1) [recSuperseded])
      ((((s.storeDone p stuck).recordMade a).goesOn { a with step := .supersede, old := some o }
        (storeAddr o.sector o.offset + 1) [recSuperseded]).settingsHeard owner v r) :=
    settles_settingsDurable hi hm hfor hown hretry hlive
  rw [← settingsHeard_goesOn]
  exact exec_programEnd_store hi hw hb hp hs hreq hprogs hq hm (res := .ok) (by simp [hactive, hgood])
    hcurrent hheard (by decide) (settingsHeard_frame _ owner v r)

/-- PROGRAM_END of the SUPERSEDED state of the record a settings record replaced, with a reclaim in progress: the write has
ended, and nothing but the reclaim that waited hears of it. -/
theorem exec_programEnd_superseded {t : State} (hstep : a.step = .supersede) (ho : a.old = some o)
    (htype : a.write.type ≠ .slot)
    (ht : ((s.storeDone p stuck).replacedGone o).victimSettled = t)
    (hsame : t.pending = s.pending ∧ t.flash = (s.programDone p stuck).flash ∧ t.fuses = s.fuses ∧ t.stat = s.stat)
    (hti : t.inbox = []) (htm : t.store.mount = none) (hwrites : t.store.writes = []) (htretry : t.store.retry = [])
    (hreclaim : t.store.reclaim ≠ none) (hwipe : t.creds.wipe ≠ .removal) :
    exec (.programEnd stuck) s = .next (t.setCur none).updateStat :=
  exec_programEnd_store hi hw hb hp hs hreq hprogs hq hm rfl
    (writeProgEnded_superseded (s := s.storeDone p stuck) hcur hstep ho ht hti _)
    (settles_settingsEnded (s := t.setCur none) hti htm hfor htype rfl hwrites htretry hreclaim hwipe) (by decide) hsame

/-- The same, as the reclaim does not wait for that program alone. -/
theorem exec_programEnd_replaced (hstep : a.step = .supersede) (ho : a.old = some o) (htype : a.write.type ≠ .slot)
    (hwrites : s.store.writes = []) (hretry : s.store.retry = []) (hwipe : s.creds.wipe ≠ .removal)
    {x : Reclaim} (hx : s.store.reclaim = some x) (hsettling : x.step ≠ .settling) :
    exec (.programEnd stuck) s = .next (((s.storeDone p stuck).replacedGone o).setCur none).updateStat := by
  have hidle : ((s.storeDone p stuck).replacedGone o).victimSettled = (s.storeDone p stuck).replacedGone o :=
    victimSettled_idle fun y hy => by rw [Option.some.inj (hy.symm.trans hx)]; exact hsettling
  exact exec_programEnd_superseded hi hw hb hp hs hreq hprogs hq hm hcur hfor hstep ho htype hidle
    ⟨rfl, rfl, rfl, rfl⟩ hi hm hwrites hretry (fun h => Option.some_ne_none x (hx.symm.trans h)) hwipe

/-- The same, as the reclaim waited for that program alone: the erase of its victim is requested. -/
theorem exec_programEnd_victim (hbare : (s.storeDone p stuck).ctl.Bare) (hstep : a.step = .supersede) (ho : a.old = some o)
    (htype : a.write.type ≠ .slot) (hwrites : s.store.writes = []) (hretry : s.store.retry = [])
    (hwipe : s.creds.wipe ≠ .removal) {x : Reclaim} (hx : s.store.reclaim = some x) (hsettling : x.step = .settling)
    (hret : storeSector x.victim ∉ s.ctl.retired) :
    exec (.programEnd stuck) s = .next ((((s.storeDone p stuck).replacedGone o).victimErasing x).setCur none).updateStat := by
  have herasing : ((s.storeDone p stuck).replacedGone o).victimSettled = ((s.storeDone p stuck).replacedGone o).victimErasing x :=
    victimSettled_erasing hx hsettling rfl hbare hret
  exact exec_programEnd_superseded hi hw hb hp hs hreq hprogs hq hm hcur hfor hstep ho htype herasing
    ⟨rfl, rfl, rfl, rfl⟩ hi hm hwrites hretry (Option.some_ne_none _) hwipe

end

/-- Settles O52: what the completed program's requester makes of it, for the Image Manager and for each step of the Record
Store's begun write. -/
theorem programEndsServeStageData : Obligations.ProgramEndsServeStageData := by
  intro s p stuck hi hp hs hr hw hb
  refine ⟨fun pg hreq hpages hlast hstate howner hport hno hwork => ⟨fun good => ?_, fun _ htakes => ?_⟩,
    fun a q hreq hcur hprogs hq hm hout => ?_⟩
  · exact exec_programEnd_lastPage hi hw hb hp hs hreq hpages hstate howner (live_of_port hport hno) hwork good hlast
  · exact exec_programTimeLimit_page hi hw hb hp hs hreq hpages hstate howner (live_of_port hport hno) hwork htakes
  have bare : (s.storeDone p stuck).ctl.Bare := ⟨hr, rfl, hb, hout⟩
  refine ⟨fun good hstep => ⟨fun page rest hleft hret => ?_, fun hleft hret => ?_⟩, fun good hstep hret => ?_,
    fun owner v r o good hstep hfor hown hretry hport hno hold hret => ?_,
    fun owner v r o hstep hold hfor htype hwrites hretry hwipe x hx => ⟨fun hsettling => ?_, fun hsettling hret => ?_⟩,
    fun hstep _ hret => ?_⟩
  · exact exec_programEnd_goesOn hi hw hb hp hs hreq hprogs hq hm good
      (writeProgEnded_page (s := s.storeDone p stuck) hcur rfl bare hstep hleft hret)
  · exact exec_programEnd_goesOn hi hw hb hp hs hreq hprogs hq hm good
      (writeProgEnded_tag (s := s.storeDone p stuck) hcur rfl bare hstep hleft hret)
  · exact exec_programEnd_goesOn hi hw hb hp hs hreq hprogs hq hm good
      (writeProgEnded_valid (s := s.storeDone p stuck) hcur rfl bare hstep hret)
  · have hended := exec_programEnd_settings hi hw hb hp hs hreq hprogs hq hm hcur hfor good bare hstep hown hretry
      (live_of_port hport hno) hold hret
    exact hended
  · exact exec_programEnd_replaced hi hw hb hp hs hreq hprogs hq hm hcur hfor hstep hold htype hwrites hretry hwipe hx hsettling
  · exact exec_programEnd_victim hi hw hb hp hs hreq hprogs hq hm hcur hfor bare hstep hold htype hwrites hretry hwipe hx
      hsettling hret
  · exact exec_programTimeLimit_goesOn hi hw hb hp hs hreq hprogs hq hm
      (writeProgEnded_abandon (s := s.storeLate p stuck) hcur rfl bare hstep hret)

end Sys2Proof.Machine
end

section
/-! What every step leaves of the fuses: O58. -/

namespace Sys2Proof.Machine

/-- A command that may make a part reset makes one, or leaves the fuses alone (R108). -/
theorem exec_of_resets {c : Instr} {s t : State} (hr : c.resets = true) (h : exec c s = .next t) :
    (∃ cause, t = s.partReset cause) ∨ t.fuses = s.fuses := by
  cases c with
  | powerOn => cases h; exact .inl ⟨.power, rfl⟩
  | nreset => cases h; exact .inl ⟨.pin, rfl⟩
  | partReset m tag payload =>
    simp only [exec, execPartReset] at h
    split at h
    · cases h; exact .inl ⟨.request, rfl⟩
    · exact .inr (reply_frame h).2.2.2.1
  | _ => cases hr

theorem Fuses.Kept.refl (f : Fuses) : f.Kept f := fun _ h => h

theorem Fuses.kept_blow (f : Fuses) (x : FuseId) : f.Kept (f.blow x) := f.blow_kept x

/-- The attempt a part reset abandons blows its own fuse or none (R48). -/
theorem partReset_keepsBlown (s : State) (cause : ResetCause) : s.fuses.Kept (s.partReset cause).fuses := by
  rw [State.fuses_partReset]
  split
  · exact .refl _
  · split
    · exact Fuses.kept_blow _ _
    · exact .refl _

/-- Every command keeps every blown fuse. -/
theorem exec_keepsBlown {c : Instr} {s t : State} (h : exec c s = .next t) : s.fuses.Kept t.fuses := by
  cases hr : c.resets with
  | true =>
    obtain ⟨cause, rfl⟩ | e := exec_of_resets hr h
    · exact partReset_keepsBlown s cause
    · rw [e]; exact .refl _
  | false =>
    obtain e | ⟨-, i, -, e⟩ := exec_fuses h hr
    · rw [e]; exact .refl _
    · rw [e]; exact Fuses.kept_blow _ i

/-- Settles O58: time that passes leaves the fuses alone, and every command only blows. -/
theorem everyStepKeepsBlownFuses : Obligations.EveryStepKeepsBlownFuses := by
  intro s t h
  unfold step at h
  split at h
  · cases h; exact Fuses.Kept.refl s.fuses
  · rename_i c rest _
    exact exec_keepsBlown (s := { s with pending := rest }) h

end Sys2Proof.Machine
end

section
/-! The rules of the Fuse Bank: a job that goes on, the job list, a submitted job, the read at part reset. -/

namespace Sys2Proof.Machine

/-! ### The job in progress and the job list (R38, R43, R44) -/

/-- With a job in progress, or the read at part reset, none is taken from the job list. -/
theorem runBank_busy {s : State} (h : s.bank.active.isSome = true ∨ s.bank.reading = true) (n : Nat) : s.runBank n = s := by
  cases n with
  | zero => rfl
  | succ n => simp only [State.runBank, Bool.or_eq_true, if_pos h]

/-- A job with a fuse left that does not read blown is in progress at the first such. -/
theorem advanceFuse_left {s : State} {a : ActiveFuse} (h : a.todo.dropWhile s.fuses.blown ≠ []) :
    s.advanceFuse a = s.modBank fun b =>
      { b with active := some { a with todo := a.todo.dropWhile s.fuses.blown, attempts := 0 } } := by
  simp only [State.advanceFuse, List.isEmpty_iff, if_neg h]

/-- A job whose next fuse reads intact goes on to it. -/
theorem advanceFuse_intact {s : State} {a : ActiveFuse} {g : FuseId} {rest : List FuseId} (ha : a.todo = g :: rest)
    (hg : s.fuses.blown g = false) :
    s.advanceFuse a = s.modBank fun b => { b with active := some { a with todo := g :: rest, attempts := 0 } } := by
  have htodo : a.todo.dropWhile s.fuses.blown = g :: rest := by
    rw [ha, List.dropWhile_cons_of_neg (by simp [hg])]
  rw [advanceFuse_left (by simp [htodo]), htodo]

/-- A submitted job joins the list behind a job in progress or the read at part reset. -/
theorem submitFuse_busy {s : State} (h : s.bank.active.isSome = true ∨ s.bank.reading = true) (j : FuseJob) (src : FuseSource) :
    s.submitFuse j src = s.modBank fun b => { b with jobs := b.jobs ++ [(j, src)] } :=
  runBank_busy (s := s.modBank fun b => { b with jobs := b.jobs ++ [(j, src)] }) h _

/-- A job submitted to an idle bank is in progress at its first fuse not yet blown. -/
theorem submitFuse_idle {s : State} {j : FuseJob} (ha : s.bank.active = none) (hr : s.bank.reading = false)
    (hj : s.bank.jobs = []) (hne : (j.fuses s.bank.view).dropWhile s.fuses.blown ≠ []) (src : FuseSource) :
    s.submitFuse j src = s.modBank fun b =>
      { b with active := some ⟨j, src, (j.fuses s.bank.view).dropWhile s.fuses.blown, 0, false, false⟩ } := by
  have hbegun := advanceFuse_left (s := s.modBank fun b => { b with jobs := [] })
    (a := ⟨j, src, j.fuses s.bank.view, 0, false, false⟩) hne
  simp only [State.submitFuse, State.modBank, hj, List.nil_append, List.length_singleton, State.runBank, ha, hr,
    Option.isSome_none, Bool.or_self, Bool.false_eq_true, if_false] at hbegun ⊢
  rw [hbegun, ← hj]
  rfl

/-! ### The end of an attempt (R44 to R46) -/

theorem exec_fuseAttemptEnd {s : State} {a : ActiveFuse} {f : FuseId} {rest : List FuseId} (ha : s.bank.active = some a)
    (ht : a.todo = f :: rest) (blown : Bool) :
    exec (.fuseAttemptEnd blown) s = act (fun t => t.endAttempt blown) (s.attempted f blown) := by
  have hunder : s.bank.underAttempt = some f := by simp [FuseBank.underAttempt, ha, ht]
  simp only [exec, execFuseAttemptEnd, hunder]

section
variable {s : State} {a : ActiveFuse} (ha : s.bank.active = some a)
include ha

/-- A fuse found blown: the job goes on to its next fuse, one that reads intact. -/
theorem endAttempt_blown {f g : FuseId} {rest : List FuseId} (ht : a.todo = f :: g :: rest) (hg : s.fuses.blown g = false) :
    s.endAttempt true = s.modBank fun b => { b with active := some { a with todo := g :: rest, attempts := 0 } } := by
  have hnext := advanceFuse_intact (s := s) (a := { a with todo := a.todo.tail }) (by rw [ht]; rfl) hg
  simp only [State.endAttempt, ha, if_true, hnext]
  exact runBank_busy (.inl rfl) _

/-- A fuse found intact before its third attempt is attempted again. -/
theorem endAttempt_again (hn : a.attempts < 2) :
    s.endAttempt false = s.modBank fun b => { b with active := some { a with attempts := a.attempts + 1 } } := by
  have hleft : a.attempts + 1 < 3 := by omega
  simp only [State.endAttempt, ha, Bool.false_eq_true, if_false, if_pos hleft]
  exact runBank_busy (.inl rfl) _

/-- A REVOKE job whose fuse has failed goes on to its next fuse. -/
theorem endAttempt_revoke {set : BitVec 4} {f g : FuseId} {rest : List FuseId} (hj : a.job = .revoke set)
    (ht : a.todo = f :: g :: rest) (hn : a.attempts = 2) (hg : s.fuses.blown g = false) :
    s.endAttempt false =
      s.modBank fun b => { b with active := some { a with todo := g :: rest, attempts := 0, failed := true } } := by
  have hover : ¬ a.attempts + 1 < 3 := by omega
  have hfailed : a.fuseFailed = { a with todo := g :: rest, failed := true } := by
    simp only [ActiveFuse.fuseFailed, hj, ht, List.tail_cons]
  have hnext := advanceFuse_intact (s := s) (a := { a with todo := g :: rest, failed := true }) rfl hg
  simp only [State.endAttempt, ha, Bool.false_eq_true, if_false, if_neg hover, hfailed, hnext]
  exact runBank_busy (.inl rfl) _

end

/-! ### The read at part reset (R33, R38, R42, R49, R93) -/

/-- The view and the lifecycle as the read at part reset finds them (R38, R42, R164). -/
def State.viewRead (s : State) : State := { s with
  bank := { s.bank with reading := false, view := s.fuses.view, seen := s.bank.seen || s.fuses.closed }
  creds := { s.creds with lifecycle := if s.fuses.closed then .unowned else .manufacture } }

/-- The same, with OWNER raised on every port when this read is the first to show the closed fuse blown (R42). -/
def State.fusesShown (s : State) : State :=
  if s.fuses.closed = true ∧ s.bank.seen = false then s.viewRead.raiseOwnerAll else s.viewRead

/-- The read shows its view and lifecycle, and may raise flags; nothing else of the state changes. -/
theorem fusesShown_ports (s : State) : ∃ ports, s.fusesShown = { s.viewRead with ports := ports } := by
  unfold State.fusesShown
  split
  · exact ⟨_, rfl⟩
  · exact ⟨_, rfl⟩

theorem modCreds_raiseOwnerAll (s : State) (f : CredMgr → CredMgr) :
    s.raiseOwnerAll.modCreds f = (s.modCreds f).raiseOwnerAll := rfl

/-- What the read at part reset makes of the fuses before it looks at the identity row is what it shows. -/
theorem closedSeen_shown (s : State) :
    ((s.modBank fun b => { b with reading := false, view := s.fuses.view }).closedSeen.modCreds fun c =>
      { c with lifecycle := if s.fuses.closed then .unowned else .manufacture }) = s.fusesShown := by
  have hview : s.fuses.view.closed = s.fuses.closed := rfl
  unfold State.closedSeen State.fusesShown
  simp only [State.bank_modBank, hview]
  split
  · rename_i hfirst
    obtain ⟨hclosed, hseen⟩ := hfirst
    rw [modCreds_raiseOwnerAll]
    simp only [State.viewRead, hclosed, hseen]
    rfl
  · rename_i hlater
    have hseen : (s.bank.seen || s.fuses.closed) = s.bank.seen := by
      cases hs : s.bank.seen with
      | true => rfl
      | false => simpa [hs] using hlater
    simp only [State.viewRead, hseen]
    rfl

/-- The identity row is PROGRAMMED once its written fuse is blown (R39). -/
theorem identityState_programmed_iff (f : Fuses) : f.identityState = .programmed ↔ f.written = true := by
  unfold Fuses.identityState
  by_cases hw : f.written = true
  · simp [hw]
  · rw [if_neg hw]
    split <;> simp [hw]

/-- The end of the read: mount starts with the identity row PROGRAMMED, else the masters' boot choices go on (R33, R93). -/
theorem bankRead_shown {s : State} (h : s.bank.reading = true) :
    s.bankRead = if s.fuses.written = true then s.fusesShown.startMount none
      else ((s.fusesShown.post (.tryChoice .app)).post (.tryChoice .radio)).post (.tryChoice .line) := by
  have hid : s.fusesShown.bank.view.identity = .programmed ↔ s.fuses.written = true := by
    obtain ⟨ports, hshown⟩ := fusesShown_ports s
    rw [hshown]
    exact identityState_programmed_iff s.fuses
  have hread : s.bankRead = if s.fusesShown.bank.view.identity = .programmed then s.fusesShown.startMount none
      else Master.all.foldl (fun s m => s.post (.tryChoice m)) s.fusesShown := by
    rw [← closedSeen_shown]
    unfold State.bankRead
    rw [if_pos h]
    rfl
  rw [hread]
  simp only [hid]
  rfl

/-- A submitted job that names the seed: no state but the engine's changes. -/
theorem submitJob_seed (s : State) (j : Job) (hk : j.key = .seed) (hn : j.started = false) :
    s.submitJob j = { s with engine := s.engine.given j s.fuses.seedBytes none } := by
  by_cases hq : s.engine.queue = []
  · exact submitJob_taken s j hq hn fun e => by rw [hk]; rfl
  · exact submitJob_queued s j hq _ none

/-- A mount that begins: the store is MOUNTING, and the record-protect key is being derived from the seed (R33, R49). -/
theorem startMount_given (s : State) (r : Option Req) :
    s.startMount r = { s with
      store := { s.store with cond := .mounting, mount := some (.start r) }
      engine := s.engine.given (.mk' .store (.derive (ascii "LJ330 RECORD" ++ [0])) .seed .recordKey) s.fuses.seedBytes none } :=
  submitJob_seed _ _ rfl rfl

/-! ### Boot choices before their hold deadline (R93) -/

/-- A HELD master whose hold deadline is ahead makes no boot choice. -/
theorem tryChoice_early {s : State} {m : Master} {d : Nat} (hp : (s.sup m).phase = .held) (hd : (s.sup m).holdDeadline = some d)
    (hlate : s.clock / 1000 < d) : s.tryChoice m = s := by
  have hdue : ¬ d ≤ s.ms := Nat.not_le.mpr hlate
  have hready : s.choiceReady m = false := by simp [State.choiceReady, hp, hd, hdue]
  simp [State.tryChoice, hready]

/-- The notices a calm state has after three posts. -/
theorem post_three {s : State} (h : s.inbox = []) (x y z : Notice) :
    ((s.post x).post y).post z = { s with inbox := [x, y, z] } := by
  rw [post_calm h]
  rfl

/-- A boot choice that is not made changes nothing. -/
theorem Settles.tryChoice {k : Nat} {s u : State} {m : Master} {rest : List Notice} (hi : s.inbox = [])
    (h : s.tryChoice m = s) (hu : Settles k rest s u) : Settles (k + 1) (.tryChoice m :: rest) s u :=
  .notice hi (h.trans (State.with_inbox hi).symm) hu

end Sys2Proof.Machine
end

section
/-! The ends of fuse attempts and of the read at part reset: O46. -/

namespace Sys2Proof.Machine

/-- FUSE_BANK_READ_END with the identity row not PROGRAMMED and every hold deadline ahead (R33, R93). -/
theorem exec_fuseBankReadEnd_unwritten {s : State} (hi : s.inbox = []) (hr : s.bank.reading = true)
    (hw : s.fuses.written = false)
    (hheld : ∀ m, (s.sup m).phase = .held ∧ ∃ d, (s.sup m).holdDeadline = some d ∧ s.clock / 1000 < d) :
    exec .fuseBankReadEnd s = .next s.fusesShown.updateStat := by
  have hread := (bankRead_shown hr).trans (if_neg (by simp [hw]))
  obtain ⟨ports, hshown⟩ := fusesShown_ports s
  rw [hshown] at hread ⊢
  have hcalm : ({ s.viewRead with ports := ports } : State).inbox = [] := hi
  have hearly : ∀ m, ({ s.viewRead with ports := ports } : State).tryChoice m = { s.viewRead with ports := ports } := fun m =>
    have ⟨hphase, _, hd, hlate⟩ := hheld m
    tryChoice_early hphase hd hlate
  have hposts := hread.trans (post_three hcalm (.tryChoice .app) (.tryChoice .radio) (.tryChoice .line))
  exact act_settles hi hposts (.tryChoice hcalm (hearly _) (.tryChoice hcalm (hearly _) (.tryChoice hcalm (hearly _)
    (.calm hcalm)))) (by decide) rfl rfl rfl rfl

/-- FUSE_BANK_READ_END with the identity row PROGRAMMED (R33, R49). -/
theorem exec_fuseBankReadEnd_written {s : State} (hi : s.inbox = []) (hr : s.bank.reading = true)
    (hw : s.fuses.written = true) :
    exec .fuseBankReadEnd s = .next ({ s.fusesShown with
      store := { s.store with cond := .mounting, mount := some (.start none) }
      engine := s.engine.given (.mk' .store (.derive (ascii "LJ330 RECORD" ++ [0])) .seed .recordKey) s.fuses.seedBytes
        none } : State).updateStat := by
  have hread := (bankRead_shown hr).trans (if_pos hw)
  obtain ⟨ports, hshown⟩ := fusesShown_ports s
  rw [hshown] at hread ⊢
  exact act_calm hi (hread.trans (startMount_given _ none)) hi rfl rfl rfl rfl

/-- Settles O46: each end of an attempt is one of the rules of `endAttempt`, and the end of the read shows the fuses. -/
theorem fuseAttemptsAndTheReadAtReset : Obligations.FuseAttemptsAndTheReadAtReset := by
  intro s hi
  refine ⟨fun a f g rest ha => ⟨fun ht hg => ?_, fun ht hn => ?_, fun set hj ht hn hg => ?_⟩,
    fun hr => ⟨exec_fuseBankReadEnd_unwritten hi hr, exec_fuseBankReadEnd_written hi hr⟩⟩
  · exact (exec_fuseAttemptEnd ha ht true).trans
      (act_calm hi (endAttempt_blown (s := { s with fuses := s.fuses.blow f }) ha ht hg) hi rfl rfl rfl rfl)
  · exact (exec_fuseAttemptEnd ha ht false).trans (act_calm hi (endAttempt_again ha hn) hi rfl rfl rfl rfl)
  · exact (exec_fuseAttemptEnd ha ht false).trans (act_calm hi (endAttempt_revoke ha hj ht hn hg) hi rfl rfl rfl rfl)

end Sys2Proof.Machine
end

section
/-! The manufacture requests: O45. -/

namespace Sys2Proof.Machine

/-! ### A request that ends in a refusal or in a submitted job -/

section
variable {c : Instr} {s : State} {m : Master} {n : RequestName} {payload : Bytes} {tag : Byte} {own : State → Req → State}
  (hexec : exec c s = act (fun s => s.request m n tag payload own) s) (h : s.takes m n payload) (hi : s.inbox = [])
include hexec h hi

/-- A request that its owner refuses. -/
theorem exec_refusal {st : Status}
    (ho : own (s.accept m tag n.code) (s.nextReq m) = (s.accept m tag n.code).refuse (s.nextReq m) st) :
    exec c s = .next (s.told m tag n.code st [0]).updateStat :=
  hexec.trans (act_request h hi (ho.trans (refuse_accept s m tag n.code st none)) hi rfl rfl rfl rfl)

/-- A request whose owner submits a fuse job, having touched its port and the random source alone: the job joins the list
behind a job in progress or the read at part reset, or begins at once (R43, R44). -/
theorem exec_submitFuse {t : State} {j : FuseJob} {src : FuseSource}
    (ho : own (s.accept m tag n.code) (s.nextReq m) = t.submitFuse j src)
    (ht : ∃ ports rng, t = { s with ports := ports, rng := rng }) :
    (s.bank.active.isSome = true ∨ s.bank.reading = true →
      exec c s = .next ({ t with bank := { s.bank with jobs := s.bank.jobs ++ [(j, src)] } } : State).updateStat) ∧
    (s.bank.active = none → s.bank.reading = false → s.bank.jobs = [] →
      (j.fuses s.bank.view).dropWhile s.fuses.blown ≠ [] →
      exec c s = .next ({ t with bank := { s.bank with
        active := some ⟨j, src, (j.fuses s.bank.view).dropWhile s.fuses.blown, 0, false, false⟩ } } : State).updateStat) := by
  obtain ⟨ports, rng, rfl⟩ := ht
  refine ⟨fun hbusy => ?_, fun ha hr hj hne => ?_⟩
  · exact hexec.trans (act_request h hi
      (ho.trans (submitFuse_busy (s := { s with ports := ports, rng := rng }) hbusy j src)) hi rfl rfl rfl rfl)
  · exact hexec.trans (act_request h hi
      (ho.trans (submitFuse_idle (s := { s with ports := ports, rng := rng }) ha hr hj hne src)) hi rfl rfl rfl rfl)

end

/-! ### The payloads (11.8) -/

/-- A payload of one fixed field has exactly its bytes (R192). -/
theorem length_of_fits_fixed {n : Nat} {b : Bytes} (h : fits [.fixed n] b = true) : b.length = n := by
  simp only [fits, Bool.and_eq_true, decide_eq_true_eq, List.isEmpty_iff, List.drop_eq_nil_iff] at h
  omega

theorem slice_zero_of_fits {n : Nat} {b : Bytes} (h : fits [.fixed n] b = true) : slice 0 n b = b :=
  List.take_of_length_le (Nat.le_of_eq (length_of_fits_fixed h))

/-- The second field of a payload of one byte and one more field. -/
theorem slice_one_of_fits {n : Nat} {k : Byte} {b : Bytes} (h : fits [.fixed 1, .fixed n] (k :: b) = true) :
    slice 1 n (k :: b) = b := by
  have hrest : fits [.fixed n] b = true := (Bool.and_eq_true _ _ ▸ h).2
  exact slice_zero_of_fits hrest

/-! ### The seed (R51) -/

/-- The first draw is the seed when it is not all zero. -/
theorem drawSeed_first {s : State} (h : rowBits (s.random 32) ≠ 0) (k : Nat) :
    s.drawSeed (k + 1) = (rowBits (s.random 32), s.drawn 32) := by
  simp only [State.drawSeed, if_neg h]

/-- A draw that is all zero is made again. -/
theorem drawSeed_again {s : State} (h : rowBits (s.random 32) = 0) (k : Nat) :
    s.drawSeed (k + 1) = (s.drawn 32).drawSeed k := by
  simp only [State.drawSeed, if_pos h]

/-- The seed is not 0, and nothing but the draws, one of 32 bytes at least, is used. -/
theorem drawSeed_drawn (s : State) (k : Nat) :
    ∃ (n : Nat) (seed : BitVec 256), s.drawSeed k = (seed, { s with rng := n }) ∧ seed ≠ 0 ∧ s.rng + 32 ≤ n := by
  induction k generalizing s with
  | zero =>
    have hbit : (rowBits (s.random 32) ||| 1).getLsbD 0 = true := by simp
    exact ⟨s.rng + 32, _, rfl, fun h => by rw [h] at hbit; simp at hbit, Nat.le_refl _⟩
  | succ k ih =>
    by_cases hzero : rowBits (s.random 32) = 0
    · obtain ⟨n, seed, hdraw, hne, hn⟩ := ih (s.drawn 32)
      rw [State.rng_drawn] at hn
      exact ⟨n, seed, (drawSeed_again hzero k).trans hdraw, hne, by omega⟩
    · exact ⟨s.rng + 32, _, drawSeed_first hzero k, hzero, Nat.le_refl _⟩

/-- The same, with the first draw taken when it is not all zero. -/
theorem drawSeed_spec (s : State) (k : Nat) :
    ∃ (n : Nat) (seed : BitVec 256), s.drawSeed (k + 1) = (seed, { s with rng := n }) ∧ seed ≠ 0 ∧ s.rng + 32 ≤ n ∧
      (rowBits (s.random 32) ≠ 0 → seed = rowBits (s.random 32) ∧ n = s.rng + 32) := by
  by_cases hzero : rowBits (s.random 32) = 0
  · obtain ⟨n, seed, hdraw, hne, hn⟩ := drawSeed_drawn s (k + 1)
    exact ⟨n, seed, hdraw, hne, hn, fun h => absurd hzero h⟩
  · exact ⟨s.rng + 32, _, drawSeed_first hzero k, hzero, Nat.le_refl _, fun _ => ⟨rfl, rfl⟩⟩

/-! ### The requests (R51, R53, R54) -/

theorem exec_fuseIdentity (m : Master) (tag : Byte) (payload : Bytes) (s : State) :
    exec (.fuseIdentity m tag payload) s =
      act (fun s => s.request m .fuseIdentity tag payload fun s r => s.fuseIdentity r (slice 0 8 payload)) s := rfl

theorem exec_fuseSigner (m : Master) (tag : Byte) (payload : Bytes) (s : State) :
    exec (.fuseSigner m tag payload) s =
      act (fun s => s.request m .fuseSigner tag payload fun s r =>
        s.fuseSigner r (byteAt 0 payload).toNat (slice 1 32 payload)) s := rfl

theorem exec_closeManufacture (m : Master) (tag : Byte) (payload : Bytes) (s : State) :
    exec (.closeManufacture m tag payload) s =
      act (fun s => s.request m .closeManufacture tag payload fun s r => s.closeManufacture r) s := rfl

section
variable {s : State} {r : Req}

theorem fuseIdentity_notBlank (h : s.bank.view.identity ≠ .blank) (serial : Bytes) :
    s.fuseIdentity r serial = s.refuse r .state := if_pos h

theorem fuseIdentity_serialZero {serial : Bytes} (h : s.bank.view.identity = .blank) (hz : leNat serial = 0) :
    s.fuseIdentity r serial = s.refuse r .badRequest := by
  rw [State.fuseIdentity, if_neg (fun hid => hid h), if_pos hz]

theorem fuseIdentity_submits {serial : Bytes} {d : BitVec 256 × State} (h : s.bank.view.identity = .blank)
    (hz : leNat serial ≠ 0) (hd : s.drawSeed 8 = d) :
    s.fuseIdentity r serial =
      (d.2.setWork r .other).submitFuse (.identity (BitVec.ofNat 64 (leNat serial)) d.1) (.request r) := by
  rw [State.fuseIdentity, if_neg (fun hid => hid h), if_neg hz, hd]

variable {k : Nat} (digest : Bytes)

theorem fuseSigner_aboveThree (h : 3 < k) : s.fuseSigner r k digest = s.refuse r .badRequest := if_pos h

theorem fuseSigner_notBlank (hk : k ≤ 3) (h : s.bank.view.rowBlank k = false) :
    s.fuseSigner r k digest = s.refuse r .state := by
  rw [State.fuseSigner, if_neg (Nat.not_lt.mpr hk), if_pos h]

theorem fuseSigner_submits (hk : k ≤ 3) (h : s.bank.view.rowBlank k = true) :
    s.fuseSigner r k digest = (s.setWork r .other).submitFuse (.signer k (rowBits digest)) (.request r) := by
  rw [State.fuseSigner, if_neg (Nat.not_lt.mpr hk), if_neg (by simp [h])]

theorem closeManufacture_committing (h : s.commitInProgress = true) :
    s.closeManufacture r = s.refuse r .conflict := if_pos h

theorem closeManufacture_notReady (hc : s.commitInProgress = false) (h : s.closeReady = false) :
    s.closeManufacture r = s.refuse r .state := by
  rw [State.closeManufacture, if_neg (by simp [hc]), if_pos h]

theorem closeManufacture_submits (hc : s.commitInProgress = false) (h : s.closeReady = true) :
    s.closeManufacture r = (s.setWork r .other).submitFuse .close (.request r) := by
  rw [State.closeManufacture, if_neg (by simp [hc]), if_neg (by simp [h])]

end

/-- Settles O45: each request is refused, or ends in `submitFuse` of its job. -/
theorem manufactureRequestsSubmitFuseJobs : Obligations.ManufactureRequestsSubmitFuseJobs := by
  intro tag s hi
  refine ⟨fun serial htakes => ?_, fun k digest htakes => ?_, fun payload htakes => ?_⟩
  · have ⟨_, _, _, _, hfits⟩ := htakes
    have hexec := exec_fuseIdentity .app tag serial s
    rw [slice_zero_of_fits hfits] at hexec
    refine ⟨fun hid => ?_, fun hid hz => ?_, fun hid hz => ?_⟩
    · exact exec_refusal hexec htakes hi (fuseIdentity_notBlank (s := s.accept .app tag 0x50) hid _)
    · exact exec_refusal hexec htakes hi (fuseIdentity_serialZero (s := s.accept .app tag 0x50) hid hz)
    · obtain ⟨n, seed, hdraw, hne, hn, hfirst⟩ := drawSeed_spec (s.accept .app tag 0x50) 7
      refine ⟨n, seed, hne, hn, hfirst, exec_submitFuse hexec htakes hi ?_ ⟨_, n, rfl⟩⟩
      exact (fuseIdentity_submits (s := s.accept .app tag 0x50) hid hz hdraw).trans
        (congrArg (fun t : State => t.submitFuse _ _)
          (setWork_later (s := s) (t := { s.accept .app tag 0x50 with rng := n }) .other))
  · have ⟨_, _, _, _, hfits⟩ := htakes
    have hexec := exec_fuseSigner .app tag (k :: digest) s
    rw [slice_one_of_fits hfits] at hexec
    refine ⟨fun hk => ?_, fun hk hrow => ?_, fun hk hrow => exec_submitFuse hexec htakes hi ?_ ⟨_, s.rng, rfl⟩⟩
    · exact exec_refusal hexec htakes hi (fuseSigner_aboveThree (s := s.accept .app tag 0x51) digest hk)
    · exact exec_refusal hexec htakes hi (fuseSigner_notBlank (s := s.accept .app tag 0x51) digest hk hrow)
    · exact (fuseSigner_submits (s := s.accept .app tag 0x51) digest hk hrow).trans
        (congrArg (fun t : State => t.submitFuse _ _) (setWork_accept s .app tag 0x51 .other))
  · have hexec := exec_closeManufacture .app tag payload s
    refine ⟨fun hc => ?_, fun hc hready => ?_, fun hc hready => exec_submitFuse hexec htakes hi ?_ ⟨_, s.rng, rfl⟩⟩
    · exact exec_refusal hexec htakes hi (closeManufacture_committing (s := s.accept .app tag 0x52) hc)
    · exact exec_refusal hexec htakes hi (closeManufacture_notReady (s := s.accept .app tag 0x52) hc hready)
    · exact (closeManufacture_submits (s := s.accept .app tag 0x52) hc hready).trans
        (congrArg (fun t : State => t.submitFuse _ _) (setWork_accept s .app tag 0x52 .other))

end Sys2Proof.Machine
end

section
/-! The end of the engine's only job, and what its source makes of the result: O54. -/

namespace Sys2Proof.Machine

/-! ### The engine (R56, R58) -/

/-- Nothing starts in an empty queue. -/
theorem startHead_empty {s : State} (h : s.engine.queue = []) : s.startHead = s := by
  unfold State.startHead
  rw [h]

/-- With an empty queue the engine's notice changes nothing. -/
theorem Settles.engineNext {k : Nat} {s u : State} {rest : List Notice} (hi : s.inbox = []) (hq : s.engine.queue = [])
    (hu : Settles k rest s u) : Settles (k + 1) (.engineNext :: rest) s u :=
  .notice hi ((startHead_empty hq).trans (State.with_inbox hi).symm) hu

/-- The only job ends: the engine is empty, its result and the next start are told. -/
theorem popJob_alone {s : State} {j : Job} (hi : s.inbox = []) (he : s.engine = ⟨[j], []⟩) (res : JobResult) :
    s.popJob j res = { s with engine := ⟨[], []⟩, inbox := [.jobEnded j res, .engineNext] } := by
  simp only [State.popJob, State.post, he, hi]
  rfl

/-- A key that is no longer in use stays when no entry is DESTROYING. -/
theorem releaseKey_kept {s : State} (h : ∀ e ∈ s.keys.table, e.destroying = false) (n : Nat) (g : Byte) :
    s.releaseKey n g = s := by
  have hnone : (s.keys.table.any fun e => decide (e.handle = n) && decide (e.gen = g) && e.destroying) = false :=
    List.any_eq_false.mpr fun e he => by simp [h e he]
  rw [State.releaseKey, hnone]
  rfl

/-- The only job, running, ends with a result that draws nothing, and no key waits to be freed. -/
theorem endJob_alone {s : State} {j : Job} {res : JobResult} (hi : s.inbox = []) (he : s.engine = ⟨[j], []⟩)
    (hj : j.started = true) (hd : ∀ e ∈ s.keys.table, e.destroying = false) (hres : s.compute j.copy j.op = (res, s)) :
    s.endJob = { s with engine := ⟨[], []⟩, inbox := [.jobEnded j res, .engineNext] } := by
  rw [← popJob_alone hi he res]
  simp only [State.endJob, he, hj, if_true, hres]
  cases j.inUse with
  | none => rfl
  | some key => exact congrArg (fun t : State => t.popJob j res) (releaseKey_kept hd key.1 key.2)

/-! ### Results (R59, R62) -/

theorem compute_mac (s : State) (copy data : Bytes) :
    s.compute copy (.mac data false) = (.mac (hmac copy data), s) := rfl

/-- A DIGEST job that starts a computation and ends it gives the SHA-256 of its data. -/
theorem compute_digest (s : State) (copy data : Bytes) :
    s.compute copy (.digest none data true) = (.digest (sha256 data), s) := by
  rw [sha256]
  rfl

/-! ### What a WORKING request makes of them (R144, R153) -/

theorem requestJob_mac {s : State} {r : Req} (h : s.workOf r = .mac) (b : Bytes) :
    s.requestJob r (.mac b) = s.answer r .ok b := by
  simp only [State.requestJob, h]

theorem requestJob_extend {s : State} {r : Req} {cell : Nat} {digest : Bytes} (h : s.workOf r = .extend cell digest)
    (v : Bytes) : s.requestJob r (.digest v) = s.extendDone r cell digest v := by
  simp only [State.requestJob, h]

/-- The result of a request's job goes to the request. -/
theorem jobEnded_request {s : State} {j : Job} {r : Req} (ho : j.orphaned = false) (hf : j.for_ = .request r)
    (res : JobResult) : s.jobEnded j res = s.requestJob r res := by
  simp only [State.jobEnded, ho, hf, Bool.false_eq_true, if_false]

/-- An orphaned result changes nothing (R66). -/
theorem jobEnded_orphaned {s : State} {j : Job} (ho : j.orphaned = true) (res : JobResult) : s.jobEnded j res = s :=
  if_pos ho

/-- Both changes of an extend and its answer (R153). -/
theorem extendDone_live {s : State} {r : Req} (h : s.live r = true) (cell : Nat) (digest v : Bytes) :
    s.extendDone r cell digest v =
      (s.modMeas r.port fun x => x.extended cell v digest).modPort r.port fun x =>
        { x with req := .answered
                 answer := some ⟨.ok, x.tag, [BitVec.ofNat 8 cell] ++ v ++ [BitVec.ofNat 8 (s.measSet r.port).log.length]⟩
                 flags := x.flags ||| flagAnswer, work := .none } :=
  answer_live (s := s.modMeas r.port fun x => x.extended cell v digest) h .ok _

/-! ### The command (R56) -/

/-- CRYPTO_JOB_END of the only job: its source makes `t` of the result, and nothing else hears of it. -/
theorem exec_cryptoJobEnd_alone {s t : State} {j : Job} {res : JobResult} (hi : s.inbox = [])
    (he : s.engine = ⟨[j], []⟩) (hj : j.started = true) (hm : s.store.mount = none)
    (hd : ∀ e ∈ s.keys.table, e.destroying = false) (hres : s.compute j.copy j.op = (res, s))
    (ht : ({ s with engine := ⟨[], []⟩ } : State).jobEnded j res = t)
    (hleft : ∃ ports meas, t = { s with engine := ⟨[], []⟩, ports := ports, meas := meas }) :
    exec .cryptoJobEnd s = .next t.updateStat := by
  have hraised : State.handle { s with engine := ⟨[], []⟩ } (.jobEnded j res) = t.post .mountNext :=
    congrArg (fun t : State => t.post .mountNext) ht
  obtain ⟨ports, meas, rfl⟩ := hleft
  have htold : Settles 3 [.jobEnded j res, .engineNext] { s with engine := ⟨[], []⟩ }
      { s with engine := ⟨[], []⟩, ports := ports, meas := meas } :=
    .beforeMount hi hraised hi hm (.engineNext hi rfl (.calm hi))
  exact act_settles hi (endJob_alone hi he hj hd hres) htold (by decide) rfl rfl rfl rfl

/-- Settles O54: the result of each job, and what the request that waits for it makes of it. -/
theorem cryptoJobEndHandsTheResultBack : Obligations.CryptoJobEndHandsTheResultBack := by
  intro s j r hi he hj hm hd hfor idle answered
  refine ⟨fun data ho hop hwork hno hw => ?_, fun data cell digest ho hop hwork hno hw => ?_, fun data ho hop => ?_⟩
  · have hlive : idle.live r = true := live_of_port hwork hno
    exact exec_cryptoJobEnd_alone hi he hj hm hd (hop ▸ compute_mac s j.copy data)
      ((jobEnded_request ho hfor _).trans ((requestJob_mac ((workOf_live hlive).trans hw) _).trans
        (answer_live hlive .ok _))) ⟨_, _, rfl⟩
  · have hlive : idle.live r = true := live_of_port hwork hno
    exact exec_cryptoJobEnd_alone hi he hj hm hd (hop ▸ compute_digest s j.copy data)
      ((jobEnded_request ho hfor _).trans ((requestJob_extend ((workOf_live hlive).trans hw) _).trans
        (extendDone_live hlive cell digest _))) ⟨_, _, rfl⟩
  · exact exec_cryptoJobEnd_alone hi he hj hm hd (hop ▸ compute_mac s j.copy data) (jobEnded_orphaned ho _) ⟨_, _, rfl⟩

end Sys2Proof.Machine
end

section
/-! The requests that use a table key, and the take of the key at the start of their job: O35. -/

namespace Sys2Proof.Machine

/-! ### Examinations (R129, R133) -/

section
variable {s : State} {r : Req} {h : Nat} {g : Byte} {m : Master} {u : Usage} {e : KeyEntry}

theorem examined_notFound (hf : s.keyFound h g = none) (f : State) : s.examined r h g m u f = s.refuse r .notFound := by
  simp only [State.examined, State.examineTaking, hf]

theorem examined_barred (hf : s.keyFound h g = some e) (ha : e.allows m u = false) (f : State) :
    s.examined r h g m u f = s.refuse r .notPermitted := by
  simp only [State.examined, State.examineTaking, hf, ha, Bool.false_eq_true, if_false]

theorem examined_allowed (hf : s.keyFound h g = some e) (ha : e.allows m u = true) (f : State) :
    s.examined r h g m u f = f := by
  simp only [State.examined, State.examineTaking, hf, ha, if_true]

/-- A use of a SECRET key is examined as any other use, once a key found is SECRET (R144, R146). -/
theorem withSecret_examined (hk : ∀ e, s.keyFound h g = some e → e.kind = .secret) (f : State) :
    s.withSecret r h g m u f = s.examined r h g m u f := by
  unfold State.withSecret State.withKey
  cases hf : s.keyFound h g with
  | none => exact (examined_notFound hf f).symm
  | some e => exact if_neg (fun hne => hne (hk e hf))

theorem toNat_handle (hh : h ≤ 48) : (BitVec.ofNat 8 h).toNat = h := by
  rw [BitVec.toNat_ofNat]
  omega

theorem handle_ne_zero (h1 : 1 ≤ h) (hh : h ≤ 48) : BitVec.ofNat 8 h ≠ 0 := fun hz => by
  have hn := toNat_handle hh
  rw [hz] at hn
  exact absurd hn.symm (Nat.ne_of_gt h1)

/-- A handle of 1..48 is let through. -/
theorem withHandle_inRange (h1 : 1 ≤ h) (hh : h ≤ 48) (f : Nat → State) : s.withHandle r (BitVec.ofNat 8 h) f = f h := by
  have hin : ¬ (BitVec.ofNat 8 h = 0 ∨ 48 < h) := fun ho => ho.elim (handle_ne_zero h1 hh) (by omega)
  rw [State.withHandle, toNat_handle hh, if_neg hin]

/-! ### The take (R57, R139) -/

/-- The Key Manager after a key's use limit became `n`. -/
def KeyMgr.limited (k : KeyMgr) (h : Nat) (g : Byte) (n : Nat) : KeyMgr :=
  { k with table := k.table.map fun y => if y.handle = h ∧ y.gen = g then { y with limit := some n } else y }

/-- A key without a use limit is charged nothing. -/
theorem charge_unlimited (hf : s.keyFound h g = some e) (hl : e.limit = none) (used : Bool) : s.charge h g used = s := by
  simp only [State.charge, hf, Option.bind_some, hl]

/-- A use that is not the last lowers the limit by 1. -/
theorem charge_limited {n : Nat} (hf : s.keyFound h g = some e) (hl : e.limit = some n) (hn : 2 ≤ n) (used : Bool) :
    s.charge h g used = { s with keys := s.keys.limited h g (n - 1) } := by
  simp only [State.charge, hf, Option.bind_some, hl, if_neg (show ¬ n ≤ 1 by omega)]
  rfl

/-- The take of a table key that passes its examination: the limit is charged, the key's material copied, the key in use. -/
theorem take_table (hf : s.keyFound h g = some e) (hat : s.keyAt h = some e) (ha : e.allows m u = true)
    (hb : s.bindingMet m e.binding = true) :
    s.take (.table h g m u) = .taken (s.charge h g true) e.material (some (h, g)) := by
  have hpass : s.examine h g m u = none := by simp [State.examine, hf, ha, hb]
  simp only [State.take, hpass, State.takeFound, hat, Option.map_some, Option.getD_some]

/-! ### Jobs under a table key (R56, R57) -/

/-- A submitted job whose key is taken at once from an idle engine, with what the take makes of the keys. -/
theorem submitJob_charged {j : Job} {copy : Bytes} {used : Option (Nat × Byte)} {keys : KeyMgr} (hq : s.engine.queue = [])
    (hn : j.started = false)
    (ht : ∀ e : Engine, State.take { s with engine := e } j.key = .taken { s with engine := e, keys := keys } copy used) :
    s.submitJob j = { s with engine := s.engine.given j copy used, keys := keys } := by
  unfold State.submitJob Engine.given
  simp only [hq, List.any_nil, List.isEmpty_nil, if_true, List.nil_append, State.startHead, hn, ht]
  rfl

/-- A submitted job under a table key without a use limit. -/
theorem submitJob_unlimited {j : Job} (hj : j.key = .table h g m u) (hn : j.started = false) (hf : s.keyFound h g = some e)
    (hat : s.keyAt h = some e) (ha : e.allows m u = true) (hb : s.bindingMet m e.binding = true) (hl : e.limit = none) :
    s.submitJob j = { s with engine := s.engine.given j e.material (some (h, g)) } := by
  by_cases hq : s.engine.queue = []
  · refine submitJob_taken s j hq hn fun x => ?_
    rw [hj, take_table (s := { s with engine := x }) hf hat ha hb, charge_unlimited (s := { s with engine := x }) hf hl]
  · exact submitJob_queued s j hq _ _

/-- A submitted job under a table key whose use limit is above 1, to an idle engine. -/
theorem submitJob_limited {j : Job} {n : Nat} (hq : s.engine.queue = []) (hj : j.key = .table h g m u)
    (hn : j.started = false) (hf : s.keyFound h g = some e) (hat : s.keyAt h = some e) (ha : e.allows m u = true)
    (hb : s.bindingMet m e.binding = true) (hl : e.limit = some n) (hlast : 2 ≤ n) :
    s.submitJob j = { s with
      engine := s.engine.given j e.material (some (h, g)), keys := s.keys.limited h g (n - 1) } := by
  refine submitJob_charged hq hn fun x => ?_
  rw [hj, take_table (s := { s with engine := x }) hf hat ha hb, charge_limited (s := { s with engine := x }) hf hl hlast]

end

/-! ### The requests (R142 to R144, R146) -/

theorem exec_keySign (m : Master) (tag : Byte) (payload : Bytes) (s : State) :
    exec (.keySign m tag payload) s = act (fun s => s.request m .keySign tag payload fun s r =>
      s.withHandle r (byteAt 0 payload) fun h =>
        s.examined r h (byteAt 1 payload) m .sign
          ((s.setWork r .sign).submitJob
            (portJob m r (.sign (.digest (slice 2 32 payload))) (.table h (byteAt 1 payload) m .sign)))) s := rfl

theorem exec_keyAgree (m : Master) (tag : Byte) (payload : Bytes) (s : State) :
    exec (.keyAgree m tag payload) s = act (fun s => s.request m .keyAgree tag payload fun s r =>
      s.withFlag r (byteAt 66 payload) fun keep =>
        s.withHandle r (byteAt 0 payload) fun h =>
          s.examined r h (byteAt 1 payload) m .agree
            (if keep then
              s.agreeKeep m r h (byteAt 1 payload) (slice 2 64 payload) (byteAt 67 payload) (payload.drop 68)
            else s.agree m r h (byteAt 1 payload) (slice 2 64 payload) none)) s := rfl

theorem exec_keyMac (m : Master) (tag : Byte) (payload : Bytes) (s : State) :
    exec (.keyMac m tag payload) s = act (fun s => s.request m .keyMac tag payload fun s r =>
      s.keyMac m r (byteAt 0 payload) (byteAt 1 payload) (payload.drop 2)) s := rfl

theorem exec_derivePush (m : Master) (tag : Byte) (payload : Bytes) (s : State) :
    exec (.derivePush m tag payload) s = act (fun s => s.request m .derivePush tag payload fun s r =>
      s.derivePush m r (byteAt 0 payload) (byteAt 1 payload) (payload.drop 2)) s := rfl

section
variable {s : State} {r : Req} {h : Nat} {g : Byte} {m : Master} {x : Bytes}

/-- KEY-MAC of a table key's handle is a use of a SECRET key (R144). -/
theorem keyMac_handle (h1 : 1 ≤ h) (hh : h ≤ 48) (hx : x.length ≤ 1000) :
    s.keyMac m r (BitVec.ofNat 8 h) g x = s.withSecret r h g m .mac
      ((s.setWork r .mac).submitJob (portJob m r (.mac x false) (.table h g m .mac))) := by
  have hform : ¬ (48 < h ∨ 1000 < x.length) := by omega
  simp only [State.keyMac, toNat_handle hh, if_neg hform, if_neg (handle_ne_zero h1 hh)]

/-- DERIVE-PUSH of a table key's handle on an empty stack is a use of a SECRET key, at depth 0 (R146). -/
theorem derivePush_handle (h1 : 1 ≤ h) (hh : h ≤ 48) (hx1 : 1 ≤ x.length) (hx : x.length ≤ 64)
    (hst : s.keys.stackOf.get m = []) :
    s.derivePush m r (BitVec.ofNat 8 h) g x = s.withSecret r h g m .derive
      ((s.setWork r (.pushDerive h g 0 x)).submitJob (portJob m r (.derive x) (.table h g m .derive))) := by
  have hdepth : s.depth m = 0 := by rw [State.depth, hst]; rfl
  have hform : ¬ (48 < h ∨ x.length < 1 ∨ 64 < x.length) := by omega
  simp only [State.derivePush, toNat_handle hh, if_neg hform, if_neg (handle_ne_zero h1 hh), hdepth, ne_eq,
    not_true_eq_false, if_false]

/-- Without keep the AGREE job is submitted (R143). -/
theorem withFlag_clear (f : Bool → State) : s.withFlag r 0 f = f false := if_pos rfl

/-- The field that follows the handle and the generation (11.8). -/
theorem slice_afterKey {k : Nat} (b : Byte) (y : Bytes) (hx : x.length = k) : slice 2 k ([b, g] ++ x ++ y) = x := by
  subst hx
  simp [slice]

/-- The keep flag of a KEY-AGREE payload (11.8). -/
theorem byteAt_keep (b : Byte) (hx : x.length = 64) : byteAt 66 ([b, g] ++ x ++ [0, 0]) = 0 := by
  simp [byteAt, hx]

/-- A request whose owner has recorded what it waits for and submits a job, with what the take makes of the keys. -/
theorem exec_submitJob {c : Instr} {n : RequestName} {payload : Bytes} {tag : Byte} {own : State → Req → State} {w : Work}
    {j : Job} {engine : Engine} {keys : KeyMgr} (hexec : exec c s = act (fun s => s.request m n tag payload own) s)
    (htakes : s.takes m n payload) (hi : s.inbox = [])
    (ho : own (s.accept m tag n.code) (s.nextReq m) = ((s.accept m tag n.code).setWork (s.nextReq m) w).submitJob j)
    (hj : (s.working m tag n.code w).submitJob j = { s.working m tag n.code w with engine := engine, keys := keys }) :
    exec c s = .next ({ s.working m tag n.code w with engine := engine, keys := keys } : State).updateStat := by
  rw [setWork_accept] at ho
  exact hexec.trans (act_request htakes hi (ho.trans hj) hi rfl rfl rfl rfl)

end

/-- Settles O35: each request comes down to the examination of a use, which refuses, or submits the job under the key. -/
theorem keyUsesSubmitTheirJobs : Obligations.KeyUsesSubmitTheirJobs := by
  intro m tag h g x s h1 hh hi r b uses
  have used : ∀ {n : RequestName} {payload : Bytes} {c : Instr} {u : Usage} {secret : Bool} {w : Work} {op : CryptoOp}
      {own : State → Req → State}, exec c s = act (fun s => s.request m n tag payload own) s →
      ((∀ e, s.keyFound h g = some e → secret = true → e.kind = .secret) →
        own (s.accept m tag n.code) r = (s.accept m tag n.code).examined r h g m u
          (((s.accept m tag n.code).setWork r w).submitJob (portJob m r op (.table h g m u)))) →
      uses n payload c u secret w op := by
    intro n payload c u secret w op own hexec hown htakes
    refine ⟨fun hf => ?_, fun e hf hkind => ?_⟩
    · have hexam := hown fun e he => nomatch hf.symm.trans he
      exact exec_refusal hexec htakes hi (hexam.trans (examined_notFound (s := s.accept m tag n.code) hf _))
    · have hexam := hown fun e' he => Option.some.inj (hf.symm.trans he) ▸ hkind
      refine ⟨fun ha => ?_, fun ha hat hb => ?_⟩
      · exact exec_refusal hexec htakes hi (hexam.trans (examined_barred (s := s.accept m tag n.code) hf ha _))
      · have hjob := hexam.trans (examined_allowed (s := s.accept m tag n.code) hf ha _)
        exact ⟨fun hl => exec_submitJob hexec htakes hi hjob
            (submitJob_unlimited (s := s.working m tag n.code w) rfl rfl hf hat ha hb hl),
          fun n' hl hn hq => exec_submitJob hexec htakes hi hjob
            (submitJob_limited (s := s.working m tag n.code w) hq rfl rfl hf hat ha hb hl hn)⟩
  refine ⟨fun hx => used (exec_keySign ..) fun _ => ?_, fun hx => used (exec_keyAgree ..) fun _ => ?_,
    fun hx => used (exec_keyMac ..) fun hk => ?_, fun hx1 hx hst => used (exec_derivePush ..) fun hk => ?_⟩
  · have hdigest : slice 2 32 ([b, g] ++ x) = x := List.append_nil ([b, g] ++ x) ▸ slice_afterKey b [] hx
    rw [hdigest]
    exact withHandle_inRange h1 hh _
  · rw [byteAt_keep b hx, slice_afterKey b _ hx]
    exact (withFlag_clear _).trans (withHandle_inRange h1 hh _)
  · exact (keyMac_handle (s := s.accept m tag 0x27) h1 hh hx).trans
      (withSecret_examined (s := s.accept m tag 0x27) (fun e he => hk e he rfl) _)
  · exact (derivePush_handle (s := s.accept m tag 0x28) h1 hh hx1 hx hst).trans
      (withSecret_examined (s := s.accept m tag 0x28) (fun e he => hk e he rfl) _)

end Sys2Proof.Machine
end

section
/-! What the slot requests share: the fields of their payloads, the refusal of a request, and a slot changed as its request is
accepted. -/

namespace Sys2Proof.Machine

/-! ### Fields of a payload (R192) -/

theorem withMaster_idx (s : State) (r : Req) (m : Master) (f : Master → State) :
    s.withMaster r (BitVec.ofNat 8 m.idx) f = f m := by cases m <;> rfl

theorem withSlot_idx (s : State) (r : Req) (n : SlotNo) (f : SlotNo → State) :
    s.withSlot r (BitVec.ofNat 8 n.idx) f = f n := by cases n <;> rfl

theorem withFlag_bool (s : State) (r : Req) (b : Bool) (f : Bool → State) :
    s.withFlag r (if b then 1 else 0) f = f b := by cases b <;> rfl

/-- The rescue column bars no master that holds update authority (R71, R190). -/
theorem authority_barred {s : State} {m target : Master} (h : s.rescueBars m target = true) :
    s.authority m target = false := by
  simp only [State.rescueBars, Bool.and_eq_true, decide_eq_true_eq, Bool.not_eq_true', decide_eq_false_iff_not] at h
  obtain ⟨⟨happ, hrescue⟩, hother⟩ := h
  rw [State.authority, if_pos ⟨happ, hrescue⟩, decide_eq_false hother]

theorem rescueBars_authority {s : State} {m target : Master} (h : s.authority m target = true) :
    s.rescueBars m target = false := by
  cases hbars : s.rescueBars m target with
  | false => rfl
  | true => exact absurd (authority_barred hbars) (by simp [h])

/-! ### Refusals -/

/-- A request that its owner refuses with a detail (R191). -/
theorem exec_refusal_detail {c : Instr} {s : State} {m : Master} {n : RequestName} {payload : Bytes} {tag : Byte}
    {own : State → Req → State} (hexec : exec c s = act (fun s => s.request m n tag payload own) s)
    (h : s.takes m n payload) (hi : s.inbox = []) {st : Status} {d : Option Reason}
    (ho : own (s.accept m tag n.code) (s.nextReq m) = (s.accept m tag n.code).refuse (s.nextReq m) st d) :
    exec c s = .next (s.told m tag n.code st [detailCode d]).updateStat :=
  hexec.trans (act_request h hi (ho.trans (refuse_accept s m tag n.code st d)) hi rfl rfl rfl rfl)

/-! ### A slot changed as its request is accepted (R70, R181) -/

theorem Tri.set_comm {α : Type} (t : Tri α) {m k : Master} (h : k ≠ m) (a b : α) :
    (t.set k a).set m b = (t.set m b).set k a := by
  cases m <;> cases k <;> first | rfl | exact absurd rfl h

/-- An update of a port that leaves the raising of flags alone. -/
def Port.Unflagged (f : Port → Port) : Prop :=
  ∀ (p : Port) (flag : BitVec 8), f { p with flags := p.flags ||| flag } = { f p with flags := (f p).flags ||| flag }

theorem raise_modPort {f : Port → Port} (hf : Port.Unflagged f) (s : State) (k m : Master) (flag : BitVec 8) :
    (s.modPort m f).raise k flag = (s.raise k flag).modPort m f := by
  by_cases h : k = m
  · subst h
    have hport := hf (s.ports.get k) flag
    simp only [State.raise, State.modPort, Tri.get_set_same, Tri.set_set, hport]
  · simp only [State.raise, State.modPort, Tri.get_set_other _ _ _ _ h, Tri.get_set_other _ _ _ _ (Ne.symm h),
      Tri.set_comm _ h]

theorem raiseSlot_both {s : State} {k : Master} (h : k ≠ .app ∧ s.authority .app k = true) :
    s.raiseSlot k = (s.raise k flagSlot).raise .app flagSlot := if_pos h

theorem raiseSlot_own {s : State} {k : Master} (h : ¬ (k ≠ .app ∧ s.authority .app k = true)) :
    s.raiseSlot k = s.raise k flagSlot := if_neg h

theorem raiseSlot_modPort {f : Port → Port} (hf : Port.Unflagged f) (s : State) (k m : Master) :
    (s.modPort m f).raiseSlot k = (s.raiseSlot k).modPort m f := by
  by_cases h : k ≠ .app ∧ s.authority .app k = true
  · rw [raiseSlot_both h, raiseSlot_both (s := s.modPort m f) h, raise_modPort hf, raise_modPort hf]
  · rw [raiseSlot_own h, raiseSlot_own (s := s.modPort m f) h, raise_modPort hf]

theorem setSlot_quiet {s : State} {i : SlotId} {e : SlotEntry} (h : (s.slot i).state = e.state ∧ (s.slot i).reason = e.reason) :
    s.setSlot i e = s.putSlot i e := if_pos h

theorem setSlot_raises {s : State} {i : SlotId} {e : SlotEntry}
    (h : ¬ ((s.slot i).state = e.state ∧ (s.slot i).reason = e.reason)) :
    s.setSlot i e = (s.putSlot i e).raiseSlot i.master := if_neg h

/-- A slot's change and such an update take effect in either order. -/
theorem setSlot_modPort {f : Port → Port} (hf : Port.Unflagged f) (s : State) (i : SlotId) (e : SlotEntry) (m : Master) :
    (s.modPort m f).setSlot i e = (s.setSlot i e).modPort m f := by
  by_cases h : (s.slot i).state = e.state ∧ (s.slot i).reason = e.reason
  · rw [setSlot_quiet h, setSlot_quiet (s := s.modPort m f) h]
    rfl
  · rw [setSlot_raises h, setSlot_raises (s := s.modPort m f) h, ← raiseSlot_modPort hf]
    rfl

theorem setSlot_accept (s : State) (i : SlotId) (e : SlotEntry) (m : Master) (tag code : Byte) :
    (s.accept m tag code).setSlot i e = (s.setSlot i e).accept m tag code :=
  setSlot_modPort (fun _ _ => rfl) s i e m

theorem setSlot_working (s : State) (i : SlotId) (e : SlotEntry) (m : Master) (tag code : Byte) (w : Work) :
    (s.working m tag code w).setSlot i e = (s.setSlot i e).working m tag code w :=
  setSlot_modPort (fun _ _ => rfl) s i e m

/-- A changed slot may raise flags of a port, and leaves the rest of it. -/
theorem port_setSlot (s : State) (i : SlotId) (e : SlotEntry) (k : Master) :
    ∃ flags, (s.setSlot i e).port k = { s.port k with flags := flags } := by
  have raised : ∀ {t : State}, (∃ flags, t.port k = { s.port k with flags := flags }) → ∀ j,
      ∃ flags, (t.raise j flagSlot).port k = { s.port k with flags := flags } := by
    rintro t ⟨flags, ht⟩ j
    by_cases h : k = j
    · subst h
      exact ⟨_, (State.port_modPort t k _).trans (by rw [ht])⟩
    · exact ⟨flags, (State.port_modPort_other t j k _ h).trans ht⟩
  have hput : ∃ flags, (s.putSlot i e).port k = { s.port k with flags := flags } := ⟨_, rfl⟩
  by_cases h : (s.slot i).state = e.state ∧ (s.slot i).reason = e.reason
  · rw [setSlot_quiet h]
    exact hput
  · rw [setSlot_raises h]
    by_cases hb : i.master ≠ .app ∧ (s.putSlot i e).authority .app i.master = true
    · rw [raiseSlot_both hb]
      exact raised (raised hput _) _
    · rw [raiseSlot_own hb]
      exact raised hput _

theorem nextReq_setSlot (s : State) (i : SlotId) (e : SlotEntry) (m : Master) : (s.setSlot i e).nextReq m = s.nextReq m := by
  obtain ⟨flags, hport⟩ := port_setSlot s i e m
  rw [State.nextReq, hport]
  rfl

@[simp] theorem State.slot_putSlot (s : State) (i : SlotId) (e : SlotEntry) : (s.putSlot i e).slot i = e := by
  obtain ⟨m, n⟩ := i
  cases m <;> cases n <;> rfl

@[simp] theorem State.slot_setSlot (s : State) (i : SlotId) (e : SlotEntry) : (s.setSlot i e).slot i = e := by
  obtain ⟨ports, hports⟩ := setSlot_ports s i e
  rw [hports]
  exact State.slot_putSlot s i e

end Sys2Proof.Machine
end

section
/-! STAGE-BEGIN, STAGE-DATA and STAGE-END: O23, O24, O25. -/

namespace Sys2Proof.Machine

/-! ### STAGE-BEGIN (R72, R73) -/

theorem exec_stageBegin (m target : Master) (overwrite : Bool) (tag : Byte) (mf : Bytes) (s : State) :
    exec (.stageBegin m tag ([BitVec.ofNat 8 target.idx, if overwrite then 1 else 0] ++ mf)) s =
      act (fun s => s.request m .stageBegin tag ([BitVec.ofNat 8 target.idx, if overwrite then 1 else 0] ++ mf) fun s r =>
        s.stageBegin m r target overwrite mf) s := by
  have hown : ∀ (s : State) (r : Req),
      (s.withMaster r (BitVec.ofNat 8 target.idx) fun target =>
        if s.rescueBars m target then s.refuse r .notPermitted
        else s.withFlag r (if overwrite then 1 else 0) fun overwrite => s.stageBegin m r target overwrite mf) =
      s.stageBegin m r target overwrite mf := by
    intro s r
    rw [withMaster_idx, withFlag_bool]
    split
    · next hbars => exact (if_pos (authority_barred hbars)).symm
    · rfl
  exact congrArg (fun own => act (fun s => s.request m .stageBegin tag _ own) s) (funext fun s => funext (hown s))

section
variable {s : State} {m target : Master} {r : Req} {overwrite : Bool} {mf : Bytes}

theorem stageBegin_noAuthority (ha : s.authority m target = false) :
    s.stageBegin m r target overwrite mf = s.refuse r .notPermitted := if_pos ha

variable (ha : s.authority m target = true)
include ha

theorem stageBegin_committing (hc : s.commitInProgress = true) :
    s.stageBegin m r target overwrite mf = s.refuse r .conflict := by
  simp only [State.stageBegin, ha, hc, Bool.true_eq_false, if_false, if_true]

variable (hc : s.commitInProgress = false)
include hc

theorem stageBegin_pending (h : (s.session m).isSome = true ∨ (s.pendingSlot target).isSome = true) :
    s.stageBegin m r target overwrite mf = s.refuse r .state := by
  cases hs : (s.session m).isSome with
  | true => simp only [State.stageBegin, ha, hc, hs, Bool.true_eq_false, Bool.false_eq_true, if_false, if_true]
  | false =>
    have hp : (s.pendingSlot target).isSome = true := h.resolve_left (by simp [hs])
    simp only [State.stageBegin, State.placeTests, ha, hc, hs, hp, Bool.true_eq_false, Bool.false_eq_true, if_false, if_true,
      Bool.true_or]

variable {n : SlotNo} (hs : s.session m = none) (hp : s.pendingSlot target = none) (hr : s.stageReserved target = false)
  (hn : s.chooseSlot target overwrite = .inl n)
include hs hp hr hn

theorem stageBegin_badManifest {d : Reason} (hf : s.manifestFailure target mf = some d) :
    s.stageBegin m r target overwrite mf = s.refuse r .badRequest (some d) := by
  simp only [State.stageBegin, State.placeTests, ha, hc, hs, hp, hr, hn, hf, Option.isSome_none, Bool.or_self,
    Bool.true_eq_false, Bool.false_eq_true, if_false]

theorem stageBegin_submits (hf : s.manifestFailure target mf = none) :
    s.stageBegin m r target overwrite mf = (s.setWork r (.stageDigest target overwrite mf)).submitJob
      (.mk' (.port m) (.digest none (manifestKey mf) true) .none (.request r)) := by
  simp only [State.stageBegin, State.placeTests, ha, hc, hs, hp, hr, hn, hf, Option.isSome_none, Bool.or_self,
    Bool.true_eq_false, Bool.false_eq_true, if_false]

end

/-- Settles O23: each test of R72 in its order, the manifest's last, then the job of R73. -/
theorem stageBeginTestsThenDigestsTheSigner : Obligations.StageBeginTestsThenDigestsTheSigner := by
  intro m target overwrite tag mf s payload c htakes hi
  have hexec := exec_stageBegin m target overwrite tag mf s
  refine ⟨fun ha => ?_, fun ha => ⟨fun hc => ?_, fun hc => ⟨fun hp => ?_, fun hs hp hr n hn => ?_⟩⟩⟩
  · exact exec_refusal hexec htakes hi (stageBegin_noAuthority (s := s.accept m tag 0x10) ha)
  · exact exec_refusal hexec htakes hi (stageBegin_committing (s := s.accept m tag 0x10) ha hc)
  · exact exec_refusal hexec htakes hi (stageBegin_pending (s := s.accept m tag 0x10) ha hc hp)
  · refine ⟨fun d hd => ?_, fun hgood => ?_⟩
    · exact exec_refusal_detail hexec htakes hi
        (stageBegin_badManifest (s := s.accept m tag 0x10) ha hc hs hp hr hn hd)
    · have hjob := (stageBegin_submits (s := s.accept m tag 0x10) (r := s.nextReq m) ha hc hs hp hr hn hgood).trans
        (congrArg (fun t : State => t.submitJob _) (setWork_accept s m tag 0x10 _))
      exact hexec.trans (act_request htakes hi (hjob.trans (submitJob_keyless _ _ rfl rfl)) hi rfl rfl rfl rfl)

/-! ### STAGE-DATA (R75) -/

theorem exec_stageData (m : Master) (tag : Byte) (payload : Bytes) (s : State) :
    exec (.stageData m tag payload) s = act (fun s => s.request m .stageData tag payload fun s r =>
      s.stageData m r (leNat (slice 0 4 payload)) (payload.drop 4)) s := rfl

/-- The pages one STAGE-DATA is cut into (R5, R75). -/
def stagePages (r : Req) (i : SlotId) (cut : List (Nat × Bytes)) (total : Nat) : List StagePage :=
  cut.zipIdx.map fun p => ⟨r, i, p.1.1, p.1.2, decide (p.2 + 1 = cut.length), total⟩

section
variable {s : State} {r : Req} {i : SlotId} {offset : Nat} {data : Bytes}

/-- Pages join those that are queued already. -/
theorem queuePages_behind (h : s.image.pages ≠ []) :
    s.queuePages r i offset data = { s with image := { s.image with
      pages := s.image.pages ++ stagePages r i (pagesOf 8 (i.bodyAddr offset) data) data.length } } := by
  have hidle : s.image.pages.isEmpty = false := by simp [h]
  simp only [State.queuePages, hidle, Bool.false_eq_true, if_false]
  rfl

/-- With no page queued the first of them starts at a bare array. -/
theorem queuePages_starts {a : Nat} {b : Bytes} {rest : List (Nat × Bytes)} (h : s.image.pages = [])
    (hcut : pagesOf 8 (i.bodyAddr offset) data = (a, b) :: rest) (hbare : s.ctl.Bare)
    (hret : s.ctl.touchesRetired ⟨a, b.length⟩ = false) :
    s.queuePages r i offset data = { s with
      image := { s.image with pages := stagePages r i (pagesOf 8 (i.bodyAddr offset) data) data.length }
      ctl := { s.ctl with prog := some ⟨⟨.image, a, b⟩, 0, false⟩ } } := by
  have hstart := submitProgram_bare (op := ⟨.image, a, b⟩) (s := { s with
    image := { s.image with pages := stagePages r i (pagesOf 8 (i.bodyAddr offset) data) data.length } }) hbare hret
  rw [hcut] at hstart ⊢
  simp only [State.queuePages, State.modImage, hcut, h, List.nil_append]
  exact hstart

variable {m : Master}

theorem stageData_noSession (h : s.loadingSession m = none) : s.stageData m r offset data = s.refuse r .state := by
  simp only [State.stageData, h]

variable (h : s.loadingSession m = some i)
include h

theorem stageData_outOfOrder (ho : offset ≠ (s.slot i).received) :
    s.stageData m r offset data = s.refuse r .outOfOrder := by
  simp only [State.stageData, h]
  exact if_pos ho

variable (ho : offset = (s.slot i).received)
include ho

theorem stageData_outside (hd : manifestLength (s.slot i).mf < offset + data.length ∨ data = []) :
    s.stageData m r offset data = s.refuse r .badRequest := by
  subst ho
  simp only [State.stageData, h]
  exact (if_neg (fun hne => hne rfl)).trans (if_pos hd)

theorem stageData_queues (hl : offset + data.length ≤ manifestLength (s.slot i).mf) (hd : data ≠ []) :
    s.stageData m r offset data = (s.setWork r (.stageData i)).queuePages r i offset data := by
  subst ho
  simp only [State.stageData, h]
  exact (if_neg (fun hne => hne rfl)).trans (if_neg (not_or.mpr ⟨Nat.not_lt.mpr hl, hd⟩))

end

/-- Settles O24: the tests in order; the pages wait behind others, or the first of them starts at the bare array. -/
theorem stageDataQueuesItsPages : Obligations.StageDataQueuesItsPages := by
  intro m tag payload s htakes hi c offset data
  have hexec := exec_stageData m tag payload s
  refine ⟨fun hnone => ?_, fun i hsome => ⟨fun ho => ?_, fun ho => ⟨fun hout => ?_, fun hl hd => ?_⟩⟩⟩
  · exact exec_refusal hexec htakes hi (stageData_noSession (s := s.accept m tag 0x11) hnone)
  · exact exec_refusal hexec htakes hi (stageData_outOfOrder (s := s.accept m tag 0x11) hsome ho)
  · exact exec_refusal hexec htakes hi (stageData_outside (s := s.accept m tag 0x11) hsome ho hout)
  · intro cut pages t
    have hqueues := (stageData_queues (s := s.accept m tag 0x11) (r := s.nextReq m) hsome ho hl hd).trans
      (congrArg (fun t : State => t.queuePages _ i offset data) (setWork_accept s m tag 0x11 _))
    refine ⟨fun hbusy => ?_, fun a b rest hcut hidle hret hreads hprog hbatch hout => ?_⟩
    · exact hexec.trans (act_request htakes hi (hqueues.trans (queuePages_behind (s := t) hbusy)) hi rfl rfl rfl rfl)
    · exact hexec.trans (act_request htakes hi
        (hqueues.trans (queuePages_starts (s := t) hidle hcut ⟨hreads, hprog, hbatch, hout⟩ hret)) hi rfl rfl rfl rfl)

/-! ### STAGE-END (R63, R77) -/

theorem exec_stageEnd (m : Master) (tag : Byte) (payload : Bytes) (s : State) :
    exec (.stageEnd m tag payload) s =
      act (fun s => s.request m .stageEnd tag payload fun s r => s.stageEnd m r) s := rfl

section
variable {s : State} {r : Req} {i : SlotId}

/-- The check of a new name is found behind the others. -/
theorem checkOf_new {c : Check} (hnew : ∀ k ∈ s.image.checks, k.check ≠ c.check) :
    (s.modImage fun g => { g with checks := g.checks ++ [c] }).checkOf c.check = some c := by
  have hold : s.image.checks.find? (fun k => decide (k.check = c.check)) = none := by simpa using hnew
  simp [State.checkOf, hold]

/-- The Image Manager's only wanted read, at a bare array. -/
theorem queueCheckRead_starts {k : Check} (hreads : s.image.reads = []) (hk : s.checkOf k.check = some k)
    (hbare : s.ctl.Bare) :
    s.queueCheckRead k.check = { s with
      image := { s.image with reads := [k.check] }
      ctl := { s.ctl with reads := [⟨.internal .image, chunkRun k.sid (s.slot k.sid).mf k.chunk⟩] } } := by
  have hread : s.ctl.arriveRead ⟨.internal .image, chunkRun k.sid (s.slot k.sid).mf k.chunk⟩ =
      { s.ctl with reads := [⟨.internal .image, chunkRun k.sid (s.slot k.sid).mf k.chunk⟩] } := by
    rw [FlashCtl.arriveRead_idle (by simp [FlashCtl.held, hbare.outstanding]) hbare.prog (by simp [hbare.batch]), hbare.reads,
      List.nil_append]
  have hfound : [k.check].findSome? ({ s with image := { s.image with reads := [k.check] } } : State).checkOf = some k := by
    have hsame : ({ s with image := { s.image with reads := [k.check] } } : State).checkOf k.check = some k := hk
    simp [hsame]
  have hkept : [k.check].dropWhile (fun c => !decide (c = k.check)) = [k.check] := by simp
  simp only [State.queueCheckRead, hreads, List.isEmpty_nil, if_true, State.modImage, List.nil_append, State.submitCheckRead,
    hfound, hkept, State.submitRead, State.modCtl]
  rw [← hread]
  rfl

/-- The digest of a CHECKING slot begins at a bare array (R77). -/
theorem startCheck_starts (hreads : s.image.reads = []) (hnew : ∀ k ∈ s.image.checks, k.check ≠ s.uid) (hbare : s.ctl.Bare) :
    s.startCheck r i = { s with
      uid := s.uid + 1
      image := { s.image with checks := s.image.checks ++ [⟨s.uid, i, r, 0, none⟩], reads := [s.uid] }
      ctl := { s.ctl with reads := [⟨.internal .image, chunkRun i (s.slot i).mf 0⟩] } } :=
  queueCheckRead_starts (k := ⟨s.uid, i, r, 0, none⟩) hreads (checkOf_new (s := { s with uid := s.uid + 1 }) hnew) hbare

/-- The same for a slot that has just been changed. -/
theorem startCheck_setSlot (e : SlotEntry) (hreads : s.image.reads = []) (hnew : ∀ k ∈ s.image.checks, k.check ≠ s.uid)
    (hbare : s.ctl.Bare) :
    (s.setSlot i e).startCheck r i = { s.setSlot i e with
      uid := s.uid + 1
      image := { (s.setSlot i e).image with checks := s.image.checks ++ [⟨s.uid, i, r, 0, none⟩], reads := [s.uid] }
      ctl := { s.ctl with reads := [⟨.internal .image, chunkRun i e.mf 0⟩] } } := by
  have hslot := State.slot_setSlot s i e
  obtain ⟨ports, hports⟩ := setSlot_ports s i e
  rw [hports] at hslot ⊢
  rw [startCheck_starts (s := { s.putSlot i e with ports := ports }) hreads hnew hbare, hslot]
  rfl

variable {m : Master}

theorem stageEnd_noSession (h : s.loadingSession m = none) : s.stageEnd m r = s.refuse r .state := by
  simp only [State.stageEnd, h]

theorem stageEnd_short (h : s.loadingSession m = some i) (hr : (s.slot i).received ≠ manifestLength (s.slot i).mf) :
    s.stageEnd m r = s.refuse r .badRequest := by
  simp only [State.stageEnd, h]
  exact if_pos hr

theorem stageEnd_checks (h : s.loadingSession m = some i) (hr : (s.slot i).received = manifestLength (s.slot i).mf) :
    s.stageEnd m r =
      ((s.setSlot i { s.slot i with state := .checking, received := 0 }).setWork r (.stageEnd i)).startCheck r i := by
  simp only [State.stageEnd, h]
  exact if_neg (fun hne => hne hr)

end

/-- The slot changed and what the request waits for recorded, in either order. -/
theorem setWork_setSlot (s : State) (m : Master) (tag code : Byte) (i : SlotId) (e : SlotEntry) (w : Work) :
    ((s.accept m tag code).setSlot i e).setWork (s.nextReq m) w = (s.working m tag code w).setSlot i e := by
  rw [setSlot_accept, setSlot_working, ← nextReq_setSlot s i e m, setWork_accept]

/-- Settles O25: the changed slot's check begins with the read of chunk 0. -/
theorem stageEndBeginsTheCheck : Obligations.StageEndBeginsTheCheck := by
  intro m tag payload s htakes hi c
  have hexec := exec_stageEnd m tag payload s
  refine ⟨fun hnone => ?_, fun i hsome => ⟨fun hr => ?_, fun hr hreads hnew hcr hcp hcb hco => ?_⟩⟩
  · exact exec_refusal hexec htakes hi (stageEnd_noSession (s := s.accept m tag 0x12) hnone)
  · exact exec_refusal hexec htakes hi (stageEnd_short (s := s.accept m tag 0x12) hsome hr)
  · have hchecks := (stageEnd_checks (s := s.accept m tag 0x12) (r := s.nextReq m) hsome hr).trans
      (congrArg (fun t : State => t.startCheck _ i) (setWork_setSlot s m tag 0x12 i _ _))
    have hstarts := startCheck_setSlot (s := s.working m tag 0x12 (.stageEnd i)) (r := s.nextReq m) (i := i)
      { s.slot i with state := .checking, received := 0 } hreads hnew ⟨hcr, hcp, hcb, hco⟩
    obtain ⟨hinbox, hpend, hflash, hfuses, hstat⟩ := setSlot_frame (s.working m tag 0x12 (.stageEnd i)) i
      { s.slot i with state := .checking, received := 0 }
    exact hexec.trans (act_request htakes hi (hchecks.trans hstarts) (hinbox.trans hi) hpend hflash hfuses hstat)

end Sys2Proof.Machine
end

section
/-! STAGE-ABORT, SLOT-QUERY and SLOT-ERASE: O26, O27, O28. -/

namespace Sys2Proof.Machine

/-! ### STAGE-ABORT (R80, R89, R124) -/

theorem exec_stageAbort (m target : Master) (tag : Byte) (s : State) :
    exec (.stageAbort m tag [BitVec.ofNat 8 target.idx]) s =
      act (fun s => s.request m .stageAbort tag [BitVec.ofNat 8 target.idx] fun s r => s.stageAbort m r target) s :=
  congrArg (fun own => act (fun s => s.request m .stageAbort tag _ own) s)
    (funext fun s => funext fun r => withMaster_idx s r target _)

section
variable {s : State} {m target : Master} {r : Req} {i : SlotId}

theorem stageAbort_notPermitted (h : ¬ (s.rescueBars m target = false ∧ s.mayAbort m target = true)) :
    s.stageAbort m r target = s.refuse r .notPermitted := by
  refine if_pos ?_
  cases hb : s.rescueBars m target with
  | true => rfl
  | false =>
    have hm : s.mayAbort m target = false := Bool.eq_false_iff.mpr fun hm => h ⟨hb, hm⟩
    simp [hm]

variable (h : s.rescueBars m target = false ∧ s.mayAbort m target = true)
include h

theorem stageAbort_committing (hc : s.commitHolds target = true) : s.stageAbort m r target = s.refuse r .conflict := by
  simp [State.stageAbort, h, hc]

variable (hc : s.commitHolds target = false)
include hc

theorem stageAbort_noPending (hp : s.pendingSlot target = none) : s.stageAbort m r target = s.refuse r .state := by
  simp [State.stageAbort, h, hc, hp]

/-- A READY or TRIAL slot becomes FAILED when its write is DURABLE (R70, R80). -/
theorem stageAbort_writes (hp : s.pendingSlot target = some i) (hs : (s.slot i).state = .ready ∨ (s.slot i).state = .trial) :
    s.stageAbort m r target = (s.setWork r .other).writeSlot i ((s.slot i).failedWith .aborted) (.abort r i) := by
  have hstaging : (s.slot i).state.staging = false := by
    cases hs with
    | inl hs => rw [hs]; rfl
    | inr hs => rw [hs]; rfl
  simp [State.stageAbort, h, hc, hp, hstaging]

/-- The session of a slot in a staging state ends at once (R80). -/
theorem stageAbort_ends (hp : s.pendingSlot target = some i) (hs : (s.slot i).state.staging = true) :
    s.stageAbort m r target = (s.endSession i .aborted).answer r .ok [] := by
  simp [State.stageAbort, h, hc, hp, hs]

end

/-- A slot leaves LOADING with no page queued and no request that waits for one: nothing else changes (R75). -/
theorem dropPages_none {s : State} {i : SlotId} (hp : s.image.pages = []) (hw : ∀ k, (s.port k).work ≠ .stageData i) :
    s.dropPages i = s := by
  have hdropped : (s.modImage fun g => { g with
      pages := g.pages.take 1 ++ (g.pages.drop 1).filter fun p => !decide (p.sid = i) }) = s := by
    simp only [State.modImage, hp, List.take_nil, List.drop_nil, List.filter_nil, List.append_nil]
    rw [← hp]
  have hnone : ∀ ms : List Master,
      ms.foldl (fun s m => if (s.port m).work = .stageData i then s.stageDataLate (s.reqOf m) i else s) s = s := by
    intro ms
    induction ms with
    | nil => rfl
    | cons m ms ih => rw [List.foldl_cons, if_neg (hw m), ih]
  simp only [State.dropPages, hdropped, hp, List.head?_nil, Option.any_none, Bool.false_eq_true, if_false, hnone]

theorem port_writing (s : State) (w : Write) (k : Master) : (s.writing w).port k = s.port k := by
  unfold State.writing
  split <;> rfl

theorem writing_accept (s : State) (w : Write) (m : Master) (tag code : Byte) :
    (s.accept m tag code).writing w = (s.writing w).accept m tag code := by
  cases h : s.store.cur <;> simp only [State.writing, State.store_accept, h] <;> rfl

/-- The slot became FAILED at once, its write submitted (R70). -/
def State.slotFailed (s : State) (i : SlotId) (reason : Reason) : State :=
  (s.setSlot i ((s.slot i).failedWith reason)).writing
    ⟨.slot, i.id, ((s.slot i).failedWith reason).payload, true, .slotTaken i false⟩

section
variable (s : State) (i : SlotId) (reason : Reason)

theorem slotFailed_frame : (s.slotFailed i reason).inbox = s.inbox ∧ (s.slotFailed i reason).pending = s.pending ∧
    (s.slotFailed i reason).flash = s.flash ∧ (s.slotFailed i reason).fuses = s.fuses ∧
    (s.slotFailed i reason).stat = s.stat := by
  obtain ⟨hci, hcp, hcm, hcu, hcs⟩ := setSlot_frame s i ((s.slot i).failedWith reason)
  obtain ⟨hwi, hwp, hwm, hwu, hws⟩ := writing_frame (s.setSlot i ((s.slot i).failedWith reason))
    ⟨.slot, i.id, ((s.slot i).failedWith reason).payload, true, .slotTaken i false⟩
  exact ⟨hwi.trans hci, hwp.trans hcp, hwm.trans hcm, hwu.trans hcu, hws.trans hcs⟩

theorem port_slotFailed (k : Master) : ∃ flags, (s.slotFailed i reason).port k = { s.port k with flags := flags } := by
  rw [State.slotFailed, port_writing]
  exact port_setSlot s i _ k

theorem slotFailed_accept (m : Master) (tag code : Byte) :
    (s.accept m tag code).slotFailed i reason = (s.slotFailed i reason).accept m tag code := by
  rw [State.slotFailed, setSlot_accept, writing_accept]
  rfl

theorem nextReq_slotFailed (m : Master) : (s.slotFailed i reason).nextReq m = s.nextReq m := by
  obtain ⟨flags, hport⟩ := port_slotFailed s i reason m
  rw [State.nextReq, hport]
  rfl

end

/-- The session of a LOADING slot with no page queued ends (R75, R80). -/
theorem endSession_loading {s : State} {i : SlotId} (ht : s.storeTakes) (hs : (s.slot i).state = .loading)
    (hp : s.image.pages = []) (hw : ∀ k, (s.port k).work ≠ .stageData i) (reason : Reason) :
    s.endSession i reason = s.slotFailed i reason := by
  simp only [State.endSession, hs, failSlot_writing ht]
  refine dropPages_none (s := s.slotFailed i reason) ?_ fun k => ?_
  · obtain ⟨ports, hports⟩ := setSlot_ports s i ((s.slot i).failedWith reason)
    rw [State.slotFailed, State.image_writing, hports]
    exact hp
  · obtain ⟨flags, hport⟩ := port_slotFailed s i reason k
    rw [hport]
    exact hw k

/-- The request just accepted waits for no page, whatever waited before it (R181). -/
theorem work_accept_ne {s : State} {m : Master} {i : SlotId} (h : ∀ k, k ≠ m → (s.port k).work ≠ .stageData i)
    (tag code : Byte) (k : Master) : ((s.accept m tag code).port k).work ≠ .stageData i := by
  by_cases hk : k = m
  · rw [hk, port_accept]
    exact fun hw => nomatch hw
  · rw [State.accept, State.port_modPort_other _ _ _ _ hk]
    exact h k hk

/-- Settles O26: a slot in READY or TRIAL waits for its write, the session of one in LOADING ends at once. -/
theorem stageAbortFailsTheSlot : Obligations.StageAbortFailsTheSlot := by
  intro m target tag s htakes hi ht c may
  have hexec := exec_stageAbort m target tag s
  refine ⟨fun h => ?_, fun h hc => ?_, fun h hc => ⟨fun hp => ?_, fun i hp => ⟨fun hs => ?_, fun hs hpages hwork => ?_⟩⟩⟩
  · exact exec_refusal hexec htakes hi (stageAbort_notPermitted (s := s.accept m tag 0x13) h)
  · exact exec_refusal hexec htakes hi (stageAbort_committing (s := s.accept m tag 0x13) h hc)
  · exact exec_refusal hexec htakes hi (stageAbort_noPending (s := s.accept m tag 0x13) h hc hp)
  · have hwrites := (stageAbort_writes (s := s.accept m tag 0x13) (r := s.nextReq m) h hc hp hs).trans
      (congrArg (fun t : State => t.writeSlot i _ _) (setWork_accept s m tag 0x13 _))
    exact hexec.trans (act_writing htakes hi (hwrites.trans
      (submitWrite_taken (s.working m tag 0x13 .other) _ ht rfl)) hi rfl rfl rfl rfl)
  · have hends := stageAbort_ends (s := s.accept m tag 0x13) (r := s.nextReq m) h hc hp (congrArg SlotState.staging hs)
    rw [endSession_loading (s := s.accept m tag 0x13) ht hs hpages (work_accept_ne hwork tag 0x13), slotFailed_accept] at hends
    have htold : ((s.slotFailed i .aborted).accept m tag 0x13).answer (s.nextReq m) .ok [] =
        (s.slotFailed i .aborted).told m tag 0x13 .ok [] := by
      rw [← nextReq_slotFailed s i .aborted, answer_accept]
    obtain ⟨hinbox, hpend, hflash, hfuses, hstat⟩ := slotFailed_frame s i .aborted
    exact hexec.trans (act_request htakes hi (hends.trans htold) (hinbox.trans hi) hpend hflash hfuses hstat)

/-! ### SLOT-QUERY (R83, R190) -/

/-- SLOT-QUERY taken. -/
def State.slotQuery (s : State) (m : Master) (r : Req) (b : Byte) : State :=
  s.withMaster r b fun target =>
    if s.rescueBars m target || !(mayName m target || s.authority m target) then s.refuse r .notPermitted
    else s.answer r .ok (b :: ((s.slot ⟨target, .s0⟩).queryBytes ++ (s.slot ⟨target, .s1⟩).queryBytes))

theorem exec_slotQuery (m : Master) (tag : Byte) (payload : Bytes) (s : State) :
    exec (.slotQuery m tag payload) s =
      reply (fun s => s.request m .slotQuery tag payload fun s r => s.slotQuery m r (byteAt 0 payload)) s := rfl

/-- Who may query the slots of a master (R83), on the rescue image too (R190). -/
def State.mayQuery (s : State) (m target : Master) : Prop :=
  (m = .app ∧ (s.onRescue = true → target = .app)) ∨ (m ≠ .app ∧ (m = target ∨ s.authority m target = true))

theorem queryBarred_iff {s : State} {m target : Master} :
    (s.rescueBars m target || !(mayName m target || s.authority m target)) = true ↔ ¬ s.mayQuery m target := by
  by_cases happ : m = .app
  · subst happ
    simp [State.mayQuery, State.rescueBars, mayName]
  · simp [State.mayQuery, State.rescueBars, mayName, happ]

section
variable {s : State} {m target : Master} {r : Req} {b : Byte}

theorem slotQuery_unnamed (h : Master.ofIdx b.toNat = none) : s.slotQuery m r b = s.refuse r .badRequest := by
  simp only [State.slotQuery, State.withMaster, h]

theorem slotQuery_barred (h : Master.ofIdx b.toNat = some target) (hq : ¬ s.mayQuery m target) :
    s.slotQuery m r b = s.refuse r .notPermitted := by
  simp only [State.slotQuery, State.withMaster, h]
  exact if_pos (queryBarred_iff.mpr hq)

theorem slotQuery_answers (h : Master.ofIdx b.toNat = some target) (hq : s.mayQuery m target) :
    s.slotQuery m r b =
      s.answer r .ok (b :: ((s.slot ⟨target, .s0⟩).queryBytes ++ (s.slot ⟨target, .s1⟩).queryBytes)) := by
  simp only [State.slotQuery, State.withMaster, h]
  exact if_neg (fun hb => queryBarred_iff.mp hb hq)

end

/-- The layout of an entry (11.8). -/
theorem queryBytes_eq (e : SlotEntry) :
    e.queryBytes =
      [e.state.code, if e.state = .failed then detailCode e.reason else 0,
        (if e.manifest.isSome then 1#8 else 0#8) ||| (if e.tryMark then 2#8 else 0#8) ||| (if e.checked then 4#8 else 0#8) |||
          (if e.erasePending then 8#8 else 0#8),
        BitVec.ofNat 8 e.trialBoots] ++ le 4 e.received ++ ((e.manifest.getD []).take 48 ++ List.replicate 48 0).take 48 := by
  have hreason : detailCode (if e.state = .failed then e.reason else none) =
      if e.state = .failed then detailCode e.reason else 0 := apply_ite detailCode _ _ _
  have hbit : ∀ (b : Bool) (n : Nat), bit b <<< n = if b then 1#8 <<< n else 0#8 := by
    intro b n
    cases b
    · exact BitVec.zero_shiftLeft n
    · rfl
  rw [SlotEntry.queryBytes, hreason, hbit, hbit, hbit]
  rfl

/-- Settles O27: the tests of R83 and R190, and the layout of an entry. -/
theorem slotQueryReturnsBothEntries : Obligations.SlotQueryReturnsBothEntries := by
  intro m tag payload s htakes entry
  refine (exec_slotQuery m tag payload s).trans ?_
  have replied : ∀ {st answer}, (s.accept m tag 0x14).slotQuery m (s.nextReq m) (byteAt 0 payload) =
      (s.accept m tag 0x14).answer (s.nextReq m) st answer →
      reply (fun s => s.request m .slotQuery tag payload fun s r => s.slotQuery m r (byteAt 0 payload)) s =
        .next (s.told m tag 0x14 st answer) := fun h =>
    reply_request htakes (h.trans (answer_accept ..)) rfl rfl rfl rfl rfl
  cases hm : Master.ofIdx (byteAt 0 payload).toNat with
  | none => exact replied (slotQuery_unnamed hm)
  | some target =>
    by_cases hq : s.mayQuery m target
    · have hanswers := replied (slotQuery_answers (s := s.accept m tag 0x14) hm hq)
      rw [queryBytes_eq, queryBytes_eq] at hanswers
      exact hanswers.trans (congrArg _ (if_pos hq).symm)
    · exact (replied (slotQuery_barred (s := s.accept m tag 0x14) hm hq)).trans (congrArg _ (if_neg hq).symm)

/-! ### SLOT-ERASE (R7, R84) -/

theorem exec_slotErase (m : Master) (i : SlotId) (tag : Byte) (s : State) :
    exec (.slotErase m tag [BitVec.ofNat 8 i.master.idx, BitVec.ofNat 8 i.slot.idx]) s =
      act (fun s => s.request m .slotErase tag [BitVec.ofNat 8 i.master.idx, BitVec.ofNat 8 i.slot.idx] fun s r =>
        s.slotErase m r i) s :=
  congrArg (fun own => act (fun s => s.request m .slotErase tag _ own) s)
    (funext fun s => funext fun r => (withMaster_idx s r i.master _).trans (withSlot_idx s r i.slot _))

/-- The Flash Controller with the sectors `xs`, and no other, outstanding for `f`, gathering in a batch since `now` (R7). -/
def FlashCtl.gathering (c : FlashCtl) (f : EraseFor) (now : Nat) (xs : List Sector) : FlashCtl :=
  { c with outstanding := xs.map fun x => ⟨x, [f], 0⟩, batch := some ⟨.gathering, now + 200, xs, [], 0, 0⟩ }

section
variable {s : State} {f : EraseFor} {x : Sector} {xs ys : List Sector}

theorem requestErase1_first (hx : x ∉ s.ctl.retired) (ho : s.ctl.outstanding = []) (hb : s.ctl.batch = none) :
    s.requestErase1 f x = { s with ctl := s.ctl.gathering f s.clock [x] } := by
  simp [State.requestErase1, hx, ho, State.modCtl, FlashCtl.place, hb, FlashCtl.gathering]

/-- A batch that gathers and is not full takes another sector. -/
theorem requestErase1_joins (hx : x ∉ s.ctl.retired) (hnew : x ∉ ys) (hlen : ys.length < 16) :
    ({ s with ctl := s.ctl.gathering f s.clock ys } : State).requestErase1 f x =
      { s with ctl := s.ctl.gathering f s.clock (ys ++ [x]) } := by
  have hout : (ys.map fun y => (⟨y, [f], 0⟩ : Outstanding)).any (fun o => decide (o.sector = x)) = false := by
    rw [List.any_map, List.any_eq_false]
    exact fun y hy hyx => hnew (of_decide_eq_true hyx ▸ hy)
  simp [State.requestErase1, FlashCtl.gathering, hx, hout, State.modCtl, FlashCtl.place, hlen]

theorem requestErase_joins (hx : ∀ x ∈ xs, x ∉ s.ctl.retired) (hnew : (ys ++ xs).Nodup) (hlen : (ys ++ xs).length ≤ 16) :
    ({ s with ctl := s.ctl.gathering f s.clock ys } : State).requestErase f xs =
      { s with ctl := s.ctl.gathering f s.clock (ys ++ xs) } := by
  induction xs generalizing ys with
  | nil => rw [List.append_nil]; rfl
  | cons x xs ih =>
    rw [List.append_cons] at hnew hlen ⊢
    have hfirst : x ∉ ys := by
      obtain ⟨hfront, _, _⟩ := List.nodup_append.mp hnew
      obtain ⟨_, _, hapart⟩ := List.nodup_append.mp hfront
      exact fun hmem => hapart x hmem x (List.mem_singleton_self x) rfl
    have hroom : ys.length < 16 := by
      simp only [List.length_append, List.length_cons, List.length_nil] at hlen
      omega
    have hjoins := requestErase1_joins (s := s) (f := f) (hx x (List.mem_cons_self ..)) hfirst hroom
    exact (congrArg (fun t : State => t.requestErase f xs) hjoins).trans
      (ih (fun y hy => hx y (List.mem_cons_of_mem x hy)) hnew hlen)

/-- An erase request with no other sector outstanding: its sectors gather in a new batch, in the order named (R7). -/
theorem requestErase_gathers (hx : ∀ y ∈ x :: xs, y ∉ s.ctl.retired) (hnew : (x :: xs).Nodup) (hlen : (x :: xs).length ≤ 16)
    (ho : s.ctl.outstanding = []) (hb : s.ctl.batch = none) :
    s.requestErase f (x :: xs) = { s with ctl := s.ctl.gathering f s.clock (x :: xs) } := by
  have hfirst := requestErase1_first (f := f) (hx x (List.mem_cons_self ..)) ho hb
  exact (congrArg (fun t : State => t.requestErase f xs) hfirst).trans
    (requestErase_joins (ys := [x]) (fun y hy => hx y (List.mem_cons_of_mem x hy)) hnew hlen)

end

theorem SlotId.sectors_nodup (i : SlotId) : i.sectors.Nodup := by
  refine List.pairwise_map.mpr (List.nodup_range.imp fun {a b} hne hab => hne ?_)
  injection hab with _ hindex
  omega

theorem SlotId.length_sectors (i : SlotId) : i.sectors.length = slotSectors i.master := by
  rw [SlotId.sectors, List.length_map, List.length_range]

theorem slotSectors_bounds (m : Master) : 0 < slotSectors m ∧ slotSectors m ≤ 16 := by
  cases m <;> decide

section
variable {s : State} {r : Req} {i : SlotId}

/-- The sectors of a slot, none of them retired, gather in a new batch (R7, R84). -/
theorem eraseSlot_gathers (hret : s.slotRetired i = false) (ho : s.ctl.outstanding = []) (hb : s.ctl.batch = none)
    (staging : Bool) :
    s.eraseSlot i r staging = { s with
      uid := s.uid + 1
      image := { s.image with tasks := s.image.tasks ++ [⟨s.uid, i, r, staging, staging, i.sectors, false⟩] }
      ctl := s.ctl.gathering (.image s.uid) s.clock i.sectors } := by
  have hlen := i.length_sectors
  obtain ⟨hpos, hmax⟩ := slotSectors_bounds i.master
  have hx : ∀ x ∈ i.sectors, x ∉ s.ctl.retired := by
    simpa [State.slotRetired] using hret
  have hnodup := i.sectors_nodup
  simp only [State.eraseSlot, State.fresh, State.modImage]
  cases hsectors : i.sectors with
  | nil => simp [hsectors] at hlen; omega
  | cons x xs =>
    rw [hsectors] at hlen hx hnodup
    exact requestErase_gathers (s := { s with
      uid := s.uid + 1
      image := { s.image with tasks := s.image.tasks ++ [⟨s.uid, i, r, staging, staging, x :: xs, false⟩] } })
      hx hnodup (by omega) ho hb

variable {m : Master}

theorem slotErase_noAuthority (ha : s.authority m i.master = false) : s.slotErase m r i = s.refuse r .notPermitted :=
  if_pos ha

variable (ha : s.authority m i.master = true)
include ha

theorem slotErase_committing (hc : s.commitInProgress = true) : s.slotErase m r i = s.refuse r .conflict := by
  simp only [State.slotErase, ha, hc, Bool.true_eq_false, if_false, if_true]

variable (hc : s.commitInProgress = false)
include hc

theorem slotErase_notIdle
    (h : ¬ (((s.slot i).state = .failed ∨ (s.slot i).state = .fallback) ∧ (s.slot i).erasePending = false)) :
    s.slotErase m r i = s.refuse r .state := by
  have htest : ((s.slot i).state ≠ .failed ∧ (s.slot i).state ≠ .fallback) ∨ (s.slot i).erasePending = true := by
    rwa [Classical.not_and_iff_not_or_not, not_or, Bool.not_eq_false] at h
  simp only [State.slotErase, ha, hc, Bool.true_eq_false, Bool.false_eq_true, if_false]
  exact if_pos htest

variable (h : ((s.slot i).state = .failed ∨ (s.slot i).state = .fallback) ∧ (s.slot i).erasePending = false)
include h

theorem slotErase_idle :
    s.slotErase m r i =
      if s.slotRetired i then s.refuse r .state (some .damaged)
      else ((s.putSlot i { s.slot i with erasePending := true }).setWork r .other).eraseSlot i r false := by
  have htest : ¬ (((s.slot i).state ≠ .failed ∧ (s.slot i).state ≠ .fallback) ∨ (s.slot i).erasePending = true) := by
    rwa [not_or, Classical.not_and_iff_not_or_not, Classical.not_not, Classical.not_not, Bool.not_eq_true]
  simp only [State.slotErase, ha, hc, Bool.true_eq_false, Bool.false_eq_true, if_false]
  exact if_neg htest

end

/-- Settles O28: the tests in order, then the sectors gather one by one. -/
theorem slotEraseGathersTheSectors : Obligations.SlotEraseGathersTheSectors := by
  intro m i tag s payload c htakes hi e idle
  have hexec := exec_slotErase m i tag s
  refine ⟨fun ha => ?_, fun ha hc => ?_, fun ha hc => ⟨fun h => ?_, fun h hret => ?_, fun h hret ho hb => ?_⟩⟩
  · exact exec_refusal hexec htakes hi (slotErase_noAuthority (s := s.accept m tag 0x17) ha)
  · exact exec_refusal hexec htakes hi (slotErase_committing (s := s.accept m tag 0x17) ha hc)
  · exact exec_refusal hexec htakes hi (slotErase_notIdle (s := s.accept m tag 0x17) ha hc h)
  · exact exec_refusal_detail hexec htakes hi
      ((slotErase_idle (s := s.accept m tag 0x17) ha hc h).trans (if_pos hret))
  · have hidle := (slotErase_idle (s := s.accept m tag 0x17) (r := s.nextReq m) ha hc h).trans
      ((if_neg (Bool.eq_false_iff.mp hret)).trans
        (congrArg (fun t : State => t.eraseSlot i _ false)
          (setWork_later (s := s) (t := (s.accept m tag 0x17).putSlot i { s.slot i with erasePending := true }) .other)))
    have hgathers := eraseSlot_gathers (r := s.nextReq m)
      (s := (s.working m tag 0x17 .other).putSlot i { s.slot i with erasePending := true }) hret ho hb false
    exact hexec.trans (act_request htakes hi (hidle.trans hgathers) hi rfl rfl rfl rfl)

end Sys2Proof.Machine
end

section
/-! ACTIVATE in its three modes, and COMMIT_START: O29, O30. -/

namespace Sys2Proof.Machine

/-! ### The tests that the modes share (R86, R190) -/

section
variable {s : State} {m target : Master} {r : Req} {mode : Byte} {f : Master → State}

theorem activateTests_noAuthority (hm : mode.toNat ≤ 2) (ha : s.authority m target = false) :
    s.activateTests m r [BitVec.ofNat 8 target.idx, mode] f = s.refuse r .notPermitted := by
  refine (withMaster_idx s r target _).trans ?_
  by_cases hbars : s.rescueBars m target = true
  · exact if_pos hbars
  · exact (if_neg hbars).trans ((if_neg (Nat.not_lt.mpr hm)).trans (if_pos ha))

variable (hm : mode.toNat ≤ 2) (ha : s.authority m target = true)
include hm ha

theorem activateTests_authority :
    s.activateTests m r [BitVec.ofNat 8 target.idx, mode] f =
      if s.commitInProgress then s.refuse r .conflict else f target := by
  refine (withMaster_idx s r target _).trans ?_
  rw [rescueBars_authority ha]
  exact (if_neg (Nat.not_lt.mpr hm)).trans (if_neg (by simp [ha]))

theorem activateTests_committing (hc : s.commitInProgress = true) :
    s.activateTests m r [BitVec.ofNat 8 target.idx, mode] f = s.refuse r .conflict :=
  (activateTests_authority hm ha).trans (if_pos hc)

theorem activateTests_passed (hc : s.commitInProgress = false) :
    s.activateTests m r [BitVec.ofNat 8 target.idx, mode] f = f target :=
  (activateTests_authority hm ha).trans (if_neg (by simp [hc]))

end

/-! ### Modes NEXT and NOW (R86, R87) -/

/-- The mode byte of a command is its own (log entry 25). -/
theorem exec_activateTrial (m target : Master) (now : Bool) (tag : Byte) (s : State) :
    exec (if now then .activateNow m tag [BitVec.ofNat 8 target.idx, if now then 1 else 0]
        else .activateNext m tag [BitVec.ofNat 8 target.idx, if now then 1 else 0]) s =
      act (fun s => s.request m .activate tag [BitVec.ofNat 8 target.idx, if now then 1 else 0] fun s r =>
        s.activateTests m r [BitVec.ofNat 8 target.idx, if now then 1 else 0] fun target => s.activateTrial r target now) s := by
  cases now <;> rfl

section
variable {s : State} {r : Req} {target : Master} {now : Bool} {i : SlotId}

theorem activateTrial_notReady (h : s.readySlot target = none) : s.activateTrial r target now = s.refuse r .state := by
  simp only [State.activateTrial, h]

theorem activateTrial_marks (h : s.readySlot target = some i) (ht : (s.slot i).tryMark = false) :
    s.activateTrial r target now =
      (s.setWork r .other).writeSlot i { s.slot i with tryMark := true } (.tryMark r i now) := by
  simp only [State.activateTrial, h, ht, Bool.false_eq_true, if_false]

theorem activateTrial_marked (h : s.readySlot target = some i) (ht : (s.slot i).tryMark = true) :
    s.activateTrial r target now = s.activated r i now := by
  simp only [State.activateTrial, h, ht, if_true]

/-- A slot found is the master's own. -/
theorem findSlot_master {p : SlotEntry → Bool} (h : s.findSlot target p = some i) : i.master = target := by
  unfold State.findSlot at h
  split at h
  · cases h; rfl
  · split at h
    · cases h; rfl
    · cases h

theorem leaveRecovery_none {m : Master} (h : (s.sup m).hold ≠ some .recovery) : s.leaveRecovery m = s :=
  if_neg fun hr => h hr.2

end

/-- Settles O29: the shared tests, then the mark's write, or the answer that the target's Supervisor hears of in vain. -/
theorem activateNextAndNowSetTheTryMark : Obligations.ActivateNextAndNowSetTheTryMark := by
  intro m target now tag s payload c htakes hi
  have hexec := exec_activateTrial m target now tag s
  have hmode : (if now then (1 : Byte) else 0).toNat ≤ 2 := by cases now <;> decide
  refine ⟨fun ha => ?_, fun ha hc => ?_, fun ha hc => ?_⟩
  · exact exec_refusal hexec htakes hi (activateTests_noAuthority (s := s.accept m tag 0x15) hmode ha)
  · exact exec_refusal hexec htakes hi (activateTests_committing (s := s.accept m tag 0x15) hmode ha hc)
  · have tested : ∀ {f : Master → State}, (s.accept m tag 0x15).activateTests m (s.nextReq m) payload f = f target :=
      activateTests_passed (s := s.accept m tag 0x15) hmode ha hc
    refine ⟨fun hready => ?_, fun i hready => ⟨fun hmark ht => ?_, fun hmark hnext hhold => ?_⟩⟩
    · exact exec_refusal hexec htakes hi (tested.trans (activateTrial_notReady (s := s.accept m tag 0x15) hready))
    · have hmarks := (activateTrial_marks (s := s.accept m tag 0x15) (r := s.nextReq m) (now := now) hready hmark).trans
        (congrArg (fun t : State => t.writeSlot i _ _) (setWork_accept s m tag 0x15 _))
      exact hexec.trans (act_writing htakes hi (tested.trans (hmarks.trans
        (submitWrite_taken (s.working m tag 0x15 .other) _ ht rfl))) hi rfl rfl rfl rfl)
    · subst hnext
      have hmaster : i.master = target := findSlot_master hready
      have htold : (s.accept m tag 0x15).activated (s.nextReq m) i false =
          { s.told m tag 0x15 .ok [] with inbox := [.eligible target] } := by
        rw [← post_calm (s := s.told m tag 0x15 .ok []) hi, ← answer_accept, ← hmaster]
        rfl
      have hsettles : Settles 1 [.eligible target] (s.told m tag 0x15 .ok []) (s.told m tag 0x15 .ok []) :=
        .notice hi ((leaveRecovery_none (s := s.told m tag 0x15 .ok []) hhold).trans
          (State.with_inbox (s := s.told m tag 0x15 .ok []) hi).symm) (.calm hi)
      exact hexec.trans (act_settles hi ((request_taken htakes tag _).trans (tested.trans
        ((activateTrial_marked (s := s.accept m tag 0x15) hready hmark).trans htold))) hsettles (by decide) rfl rfl rfl rfl)

/-! ### A commit that starts (R115 to R117) -/

/-- The commit of `q` in progress, its journal submitted (R116, R117). -/
def State.begunCommit (s : State) (q : CommitReq) : Commit :=
  { cause := q, level := manifestLevel (s.slot q.sid).mf, revoke := maskSet (manifestMask (s.slot q.sid).mf), step := .journal,
    stopped := false, faulted := false, failedWrite := none }

/-- The JOURNAL-COMMIT write of a commit (R117). -/
def Commit.journalWrite (c : Commit) : Write := ⟨.journalCommit, 0, c.journal.payload, true, .journalOpen⟩

section
variable {s : State} {q : CommitReq} (ht : s.storeTakes) (htest : s.commitTest q = true)
include ht htest

/-- With no open journal a commit whose slot passes its tests submits its own (R116, R117). -/
theorem startCommit_journal (hj : s.image.journal = none) :
    s.startCommit q = ({ s with image := { s.image with commit := some (s.begunCommit q) } } : State).writing
      (s.begunCommit q).journalWrite := by
  have hwrite := submitWrite_taken { s with image := { s.image with commit := some (s.begunCommit q) } }
    (s.begunCommit q).journalWrite ht rfl
  rw [← hwrite]
  simp only [State.startCommit, htest, if_true, State.modImage, hj]
  exact (if_neg Bool.false_ne_true).trans (if_pos htest)

/-- A commit caused with no other in progress or waiting starts at once (R115). -/
theorem causeCommit_starts (hc : s.image.commit = none) (hj : s.image.journal = none) (hw : s.image.waitingCommits = []) :
    s.causeCommit q = ({ s with image := { s.image with commit := some (s.begunCommit q) } } : State).writing
      (s.begunCommit q).journalWrite := by
  rw [← startCommit_journal ht htest hj]
  simp [State.causeCommit, hc, hw]

/-- The first waiting commit starts (R115). -/
theorem commitNext_starts {rest : List CommitReq} (hc : s.image.commit = none) (hj : s.image.journal = none)
    (hw : s.image.waitingCommits = q :: rest) :
    s.commitNext = ({ s with image := { s.image with commit := some (s.begunCommit q), waitingCommits := rest } } : State).writing
      (s.begunCommit q).journalWrite := by
  have hfirst : s.commitNext = (s.modImage fun g => { g with waitingCommits := rest }).startCommit q := by
    simp only [State.commitNext, hc, hw, Option.isSome_none, Bool.false_eq_true, if_false]
  exact hfirst.trans (startCommit_journal (s := s.modImage fun g => { g with waitingCommits := rest }) ht htest hj)

end

/-! ### Mode INSTALL (R88) -/

theorem exec_activateInstall (m target : Master) (tag : Byte) (s : State) :
    exec (.activateInstall m tag [BitVec.ofNat 8 target.idx, 2]) s =
      act (fun s => s.request m .activate tag [BitVec.ofNat 8 target.idx, 2] fun s r =>
        s.activateTests m r [BitVec.ofNat 8 target.idx, 2] fun target => s.activateInstall r target) s := rfl

section
variable {s : State} {r : Req} {target : Master}

theorem activateInstall_notPermitted (h : s.creds.lifecycle ≠ .manufacture) :
    s.activateInstall r target = s.refuse r .notPermitted := if_pos h

variable (h : s.creds.lifecycle = .manufacture)
include h

theorem activateInstall_notReady (hr : s.readySlot target = none) : s.activateInstall r target = s.refuse r .state := by
  simp only [State.activateInstall, h, ne_eq, not_true_eq_false, if_false, hr]

theorem activateInstall_causes {q : CommitReq} (hr : s.readySlot q.master = some q.sid)
    (hd : q.bodyDigest = manifestDigest (s.slot q.sid).mf) (hcause : q.cause = .install) (hreq : q.req = r) :
    s.activateInstall r q.master = (s.setWork r .other).causeCommit q := by
  have hq : q = ⟨q.master, q.slot, manifestDigest (s.slot q.sid).mf, .install, r⟩ := by rw [← hd, ← hcause, ← hreq]
  simp only [State.activateInstall, h, ne_eq, not_true_eq_false, if_false, hr]
  exact congrArg _ hq.symm

end

/-- A step whose effect ends in a submitted write. -/
theorem act_submits {f : State → State} {s t : State} {w : Write} (hi : s.inbox = []) (h : f s = t.writing w)
    (ht : t.inbox = s.inbox ∧ t.pending = s.pending ∧ t.flash = s.flash ∧ t.fuses = s.fuses ∧ t.stat = s.stat) :
    act f s = .next (t.writing w).updateStat := by
  obtain ⟨hinbox, hp, hm, hu, hs⟩ := ht
  obtain ⟨hwi, hwp, hwm, hwu, hws⟩ := writing_frame t w
  exact act_calm hi h (hwi.trans (hinbox.trans hi)) (hwp.trans hp) (hwm.trans hm) (hwu.trans hu) (hws.trans hs)

/-- Settles O30: both commands come down to `startCommit` of `q`. -/
theorem installAndCommitStartOpenTheJournal : Obligations.InstallAndCommitStartOpenTheJournal := by
  intro s q hi ht hc hj mf journal begun write
  refine ⟨fun rest hw htest => ?_, ?_⟩
  · exact act_submits hi (commitNext_starts ht htest hc hj hw) ⟨rfl, rfl, rfl, rfl, rfl⟩
  · intro m tag payload c htakes ha hw
    have hexec := exec_activateInstall m q.master tag s
    have hidle : s.commitInProgress = false := by rw [State.commitInProgress, hc]; rfl
    have tested : ∀ {f : Master → State}, (s.accept m tag 0x15).activateTests m (s.nextReq m) payload f = f q.master :=
      activateTests_passed (s := s.accept m tag 0x15) (by decide) ha hidle
    refine ⟨fun hl => ?_, fun hl hr => ?_, fun hl hr htest hd hcause hreq => ?_⟩
    · exact exec_refusal hexec htakes hi (tested.trans (activateInstall_notPermitted (s := s.accept m tag 0x15) hl))
    · exact exec_refusal hexec htakes hi (tested.trans (activateInstall_notReady (s := s.accept m tag 0x15) hl hr))
    · have hcauses := (activateInstall_causes (s := s.accept m tag 0x15) hl hr hd hcause hreq).trans
        (congrArg (fun t : State => t.causeCommit q) (setWork_accept s m tag 0x15 _))
      exact hexec.trans (act_writing htakes hi (tested.trans (hcauses.trans
        (causeCommit_starts (s := s.working m tag 0x15 .other) ht htest hc hj hw))) hi rfl rfl rfl rfl)

end Sys2Proof.Machine
end

section
/-! What every command leaves of STAT: O59, and the state after reset: O60. -/

namespace Sys2Proof.Machine

/-! ### What R114's table looks at -/

/-- Updates of the ports, the keys and the measurements leave the conditions of R114's table alone. -/
@[simp] theorem State.statPriority_modPort (s : State) (m : Master) (f : Port → Port) :
    (s.modPort m f).statPriority = s.statPriority := rfl
@[simp] theorem State.statPriority_modKeys (s : State) (f : KeyMgr → KeyMgr) : (s.modKeys f).statPriority = s.statPriority := rfl
@[simp] theorem State.statPriority_modMeas (s : State) (m : Master) (f : MeasSet → MeasSet) :
    (s.modMeas m f).statPriority = s.statPriority := rfl
@[simp] theorem State.statPriority_raise (s : State) (m : Master) (flag : BitVec 8) :
    (s.raise m flag).statPriority = s.statPriority := rfl
@[simp] theorem State.statPriority_accept (s : State) (m : Master) (tag code : Byte) :
    (s.accept m tag code).statPriority = s.statPriority := rfl
@[simp] theorem State.statPriority_silent (s : State) (m : Master) : (s.silent m).statPriority = s.statPriority := rfl
@[simp] theorem State.statPriority_pass (s : State) (d : Nat) : (s.pass d).statPriority = s.statPriority := rfl

@[simp] theorem State.statPriority_until (s : State) (t : Nat) : (s.until t).statPriority = s.statPriority := by
  unfold State.until
  split <;> rfl

@[simp] theorem State.statPriority_untilMs (s : State) (t : Nat) : (s.untilMs t).statPriority = s.statPriority :=
  s.statPriority_until _

/-- Of the credentials R114's table looks at the wipe alone. -/
theorem State.statPriority_modCreds (s : State) {f : CredMgr → CredMgr} (h : (f s.creds).wiping = s.creds.wiping) :
    (s.modCreds f).statPriority = s.statPriority := by
  simp only [State.statPriority, State.creds_modCreds, h]
  rfl

/-- Of a Master Record R114's table looks at the hold alone. -/
theorem State.statPriority_modSup (s : State) (m : Master) {f : MasterRec → MasterRec} (h : (f (s.sup m)).hold = (s.sup m).hold) :
    (s.modSup m f).statPriority = s.statPriority := by
  have hold : ∀ k, ((s.modSup m f).sup k).hold = (s.sup k).hold := fun k => by
    by_cases hk : k = m
    · subst hk; rw [State.sup_modSup, h]
    · rw [State.sup_modSup_other s m k f hk]
  simp only [State.statPriority, hold]
  rfl

@[simp] theorem State.statPriority_answer (s : State) (r : Req) (st : Status) (payload : Bytes) :
    (s.answer r st payload).statPriority = s.statPriority := by
  unfold State.answer
  split <;> rfl

@[simp] theorem State.statPriority_refuse (s : State) (r : Req) (st : Status) (d : Option Reason) :
    (s.refuse r st d).statPriority = s.statPriority := s.statPriority_answer r st _

/-! ### Requests and transactions that no other block hears of -/

/-- An effect that leaves the conditions of R114's table alone. -/
def KeepsStat (f : State → State) : Prop := ∀ s : State, (f s).statPriority = s.statPriority

/-- A frame is discarded or refused, or its owner's effect counts. -/
theorem judge_keepsStat {own : State → Req → State} (h : ∀ r, KeepsStat fun s => own s r) (m : Master) (tag code : Byte)
    (payload : Bytes) : KeepsStat fun s => s.judge m tag code payload own := by
  intro s
  dsimp only [State.judge]
  split
  · rfl
  · split
    · rfl
    · split
      · rfl
      · exact h _ _

theorem request_keepsStat {own : State → Req → State} (h : ∀ r, KeepsStat fun s => own s r) (m : Master) (n : RequestName)
    (tag : Byte) (payload : Bytes) : KeepsStat fun s => s.request m n tag payload own := by
  refine judge_keepsStat (fun r s => ?_) m tag n.code payload
  dsimp only
  split
  · exact s.statPriority_refuse r _ _
  · split
    · exact s.statPriority_refuse r _ _
    · exact h r s

theorem served_keepsStat {f : State → State} (h : KeepsStat f) (m : Master) : KeepsStat fun s => s.served m f := by
  intro s
  dsimp only [State.served]
  split
  · rfl
  · exact h _

/-! ### Fields of a payload -/

section
variable {s : State} {r : Req} {b : Byte} {p : Nat}

theorem withMaster_statPriority {f : Master → State} (hs : s.statPriority = p) (h : ∀ m, (f m).statPriority = p) :
    (s.withMaster r b f).statPriority = p := by
  unfold State.withMaster
  split
  · rw [State.statPriority_refuse, hs]
  · exact h _

theorem withFlag_statPriority {f : Bool → State} (hs : s.statPriority = p) (h : ∀ x, (f x).statPriority = p) :
    (s.withFlag r b f).statPriority = p := by
  unfold State.withFlag
  split
  · exact h _
  · split
    · exact h _
    · rw [State.statPriority_refuse, hs]

theorem withReading_statPriority {m : Master} {f : Master → State} (hs : s.statPriority = p)
    (h : ∀ m, (f m).statPriority = p) : (s.withReading m r b f).statPriority = p := by
  refine withMaster_statPriority hs fun target => ?_
  split
  · exact h target
  · rw [State.statPriority_refuse, hs]

theorem withHandle_statPriority {f : Nat → State} (hs : s.statPriority = p) (h : ∀ k, (f k).statPriority = p) :
    (s.withHandle r b f).statPriority = p := by
  unfold State.withHandle
  split
  · rw [State.statPriority_refuse, hs]
  · exact h _

theorem withKey_statPriority {k : Nat} {f : KeyEntry → State} (hs : s.statPriority = p) (h : ∀ e, (f e).statPriority = p) :
    (s.withKey r k b f).statPriority = p := by
  unfold State.withKey
  split
  · rw [State.statPriority_refuse, hs]
  · exact h _

end

/-! ### The effects of the commands that no other block hears of -/

theorem discard_keepsStat (m : Master) (frame : Bytes) : KeepsStat fun s => s.discard m frame := by
  intro s
  dsimp only [State.discard]
  split
  · rfl
  · split <;> rfl

theorem settingsRead_keepsStat (r : Req) (which : Byte) : KeepsStat fun s => s.settingsRead r which := by
  intro s
  have record : ∀ (v : Option Settings) (source : Byte), (match v with
      | some v => s.answer r .ok (source :: v.bytes)
      | none => s.refuse r .notFound).statPriority = s.statPriority := fun v source => by
    cases v with
    | none => exact s.statPriority_refuse r _ _
    | some v => exact s.statPriority_answer r _ _
  dsimp only [State.settingsRead]
  split
  · exact s.statPriority_answer r _ _
  · split
    · exact record _ _
    · split
      · exact record _ _
      · exact s.statPriority_refuse r _ _

theorem credGet_keepsStat (m : Master) (r : Req) (name : Bytes) : KeepsStat fun s => s.credGet m r name := by
  intro s
  dsimp only [State.credGet]
  split
  · exact s.statPriority_refuse r _ _
  · split
    · exact s.statPriority_refuse r _ _
    · split
      · exact s.statPriority_answer r _ _
      · exact s.statPriority_refuse r _ _

theorem loseGrant_keepsStat (m : Master) : KeepsStat fun s => s.loseGrant m := by
  intro s
  dsimp only [State.loseGrant]
  split
  · exact (s.statPriority_modCreds rfl : (s.closeGrant m).statPriority = _)
  · rfl

theorem buttonPressed_keepsStat : KeepsStat State.buttonPressed := by
  intro s
  dsimp only [State.buttonPressed]
  split
  · exact ((s.modCreds _).statPriority_modCreds rfl).trans (s.statPriority_modCreds rfl)
  · exact s.statPriority_modCreds rfl

theorem buttonReleased_keepsStat : KeepsStat State.buttonReleased := by
  intro s
  dsimp only [State.buttonReleased]
  split
  · exact ((s.modCreds _).statPriority_modCreds rfl).trans (s.statPriority_modCreds rfl)
  · exact s.statPriority_modCreds rfl

theorem lockoutPassed_keepsStat (entry : Nat) : KeepsStat fun s => s.lockoutPassed entry := by
  intro s
  dsimp only [State.lockoutPassed]
  split
  · rfl
  · exact (State.statPriority_modCreds _ rfl).trans (s.statPriority_untilMs _)

theorem grantPassed_keepsStat (m : Master) : KeepsStat fun s => s.grantPassed m := by
  intro s
  dsimp only [State.grantPassed]
  split
  · rfl
  · exact (loseGrant_keepsStat m _).trans (s.statPriority_untilMs _)

/-! ### Every command and step -/

/-- STAT evaluated again is right: a new pattern starts as R114 gives, the old one was right before. -/
theorem updateStat_statRight {s : State} (hrec : s.stat.priority = 1 → s.stat.on = true)
    (hoff : s.stat.priority = 4 → s.stat.on = false) : s.updateStat.statRight := by
  unfold State.updateStat
  split
  · exact ⟨Eq.symm ‹_›, hrec, hoff⟩
  · refine ⟨rfl, fun h => ?_, fun h => ?_⟩
    · have h : s.statPriority = 1 := h
      simp only [h]; rfl
    · have h : s.statPriority = 4 := h
      simp only [h]; rfl

/-- A step that other blocks hear of ends with STAT evaluated again. -/
theorem act_statRight {f : State → State} {s t : State} (hs : s.statRight) (h : act f s = .next t) : t.statRight := by
  injection h with h
  subst h
  exact updateStat_statRight hs.2.1 hs.2.2

/-- A step that no other block hears of keeps STAT and the conditions of R114's table. -/
theorem reply_statRight {f : State → State} {s t : State} (hf : KeepsStat f) (hs : s.statRight) (h : reply f s = .next t) :
    t.statRight := by
  injection h with h
  subst h
  exact ⟨hs.1.trans (hf s).symm, hs.2⟩

/-- A toggle turns a blinking pattern over and no steady one (R114). -/
theorem blink_statRight {s : State} (hs : s.statRight) : s.blink.statRight := by
  unfold State.blink
  split
  · exact hs
  · rename_i p hp
    refine ⟨hs.1.trans (s.statPriority_until _).symm, fun h => ?_, fun h => ?_⟩
    · have h : s.stat.priority = 1 := h
      rw [h] at hp; cases hp
    · have h : s.stat.priority = 4 := h
      rw [h] at hp; cases hp

/-- After a part reset none of the conditions holds, and STAT is off (R90, R114). -/
theorem partReset_statRight (s : State) (cause : ResetCause) : (s.partReset cause).statRight :=
  ⟨rfl, fun h => absurd h (show (4 : Nat) ≠ 1 by decide), fun _ => rfl⟩

section
variable {s t : State} {m : Master} {tag : Byte} {payload : Bytes}

theorem execPartReset_statRight (hs : s.statRight) (h : execPartReset m tag payload s = .next t) : t.statRight := by
  unfold execPartReset at h
  split at h
  · cases h; exact partReset_statRight s _
  · exact reply_statRight (request_keepsStat (fun r s => s.statPriority_refuse r _ _) m _ tag payload) hs h

theorem execProgramEnd_statRight {stuck : Bytes} (hs : s.statRight) (h : execProgramEnd stuck s = .next t) : t.statRight := by
  unfold execProgramEnd at h
  split at h
  · exact act_statRight hs h
  · exact act_statRight (s := s.programmedBy _ stuck) hs h

theorem execProgramTimeLimit_statRight {stuck : Bytes} (hs : s.statRight) (h : execProgramTimeLimit stuck s = .next t) :
    t.statRight := by
  unfold execProgramTimeLimit at h
  split at h
  · exact act_statRight hs h
  · exact act_statRight (s := s.programmedBy _ stuck) hs h

theorem execSectorEraseEnd_statRight {kept : List (Nat × Byte)} (hs : s.statRight) (h : execSectorEraseEnd kept s = .next t) :
    t.statRight := by
  unfold execSectorEraseEnd at h
  split at h
  · exact act_statRight hs h
  · exact act_statRight (s := s.erasedBy _ kept) hs h

theorem execEraseTimeLimit_statRight {kept : List (Nat × Byte)} (hs : s.statRight) (h : execEraseTimeLimit kept s = .next t) :
    t.statRight := by
  unfold execEraseTimeLimit at h
  split at h
  · exact act_statRight hs h
  · exact act_statRight (s := s.erasedBy _ kept) hs h

theorem execFuseAttemptEnd_statRight {blown : Bool} (hs : s.statRight) (h : execFuseAttemptEnd blown s = .next t) :
    t.statRight := by
  unfold execFuseAttemptEnd at h
  split at h
  · exact act_statRight hs h
  · rename_i f _
    have attempted : (s.attempted f blown).statRight := by cases blown <;> exact hs
    exact act_statRight attempted h

theorem execUnknownTransactionCode_statRight {code : Byte} (hs : s.statRight)
    (h : execUnknownTransactionCode m code s = .next t) : t.statRight := by
  refine reply_statRight (fun u => ?_) hs h
  split
  · rfl
  · exact served_keepsStat (fun s => s.statPriority_raise m _) m u

theorem execUnknownRequest_statRight {code : Byte} (hs : s.statRight) (h : execUnknownRequest m tag code payload s = .next t) :
    t.statRight := by
  refine reply_statRight (fun u => ?_) hs h
  split
  · rfl
  · exact judge_keepsStat (fun r s => s.statPriority_refuse r _ _) m tag code payload u

theorem execRequestFrameDiscarded_statRight {frame : Option Bytes} (hs : s.statRight)
    (h : execRequestFrameDiscarded m frame s = .next t) : t.statRight := by
  refine reply_statRight (fun u => ?_) hs h
  split
  · rfl
  · split
    · rfl
    · exact discard_keepsStat m _ u

/-- The report's clear option changes the fault reason alone (R110). -/
theorem execMasterState_statRight (hs : s.statRight) (h : execMasterState m tag payload s = .next t) : t.statRight := by
  refine reply_statRight (request_keepsStat (fun r s => ?_) m _ tag payload) hs h
  refine withMaster_statPriority rfl fun target => withFlag_statPriority rfl fun clear => ?_
  have answered := s.statPriority_answer r .ok (s.sup target).report
  split
  · cases clear with
    | true => exact (State.statPriority_modSup (f := fun x => { x with fault := .none }) _ target rfl).trans answered
    | false => exact answered
  · exact s.statPriority_refuse r _ _

theorem execKeyInfo_statRight (hs : s.statRight) (h : execKeyInfo m tag payload s = .next t) : t.statRight := by
  refine reply_statRight (request_keepsStat (fun r s => ?_) m _ tag payload) hs h
  refine withHandle_statPriority rfl fun k => withKey_statPriority rfl fun e => ?_
  split
  · exact s.statPriority_refuse r _ _
  · split
    · exact s.statPriority_answer r _ _
    · exact s.statPriority_refuse r _ _

theorem execKeyFind_statRight (hs : s.statRight) (h : execKeyFind m tag payload s = .next t) : t.statRight := by
  refine reply_statRight (request_keepsStat (fun r s => ?_) m _ tag payload) hs h
  dsimp only
  split
  · exact s.statPriority_refuse r _ _
  · split
    · exact s.statPriority_refuse r _ _
    · split
      · exact s.statPriority_answer r _ _
      · exact s.statPriority_refuse r _ _

theorem execKeyPublic_statRight (hs : s.statRight) (h : execKeyPublic m tag payload s = .next t) : t.statRight := by
  refine reply_statRight (request_keepsStat (fun r s => ?_) m _ tag payload) hs h
  refine withHandle_statPriority rfl fun k => withKey_statPriority rfl fun e => ?_
  split
  · exact s.statPriority_refuse r _ _
  · split
    · exact s.statPriority_refuse r _ _
    · split
      · exact s.statPriority_answer r _ _
      · exact s.statPriority_refuse r _ _

theorem execDerivePop_statRight (hs : s.statRight) (h : execDerivePop m tag payload s = .next t) : t.statRight := by
  refine reply_statRight (request_keepsStat (fun r s => ?_) m _ tag payload) hs h
  dsimp only
  split
  · exact s.statPriority_refuse r _ _
  · exact State.statPriority_answer _ r _ _

theorem execLockCell_statRight (hs : s.statRight) (h : execLockCell m tag payload s = .next t) : t.statRight := by
  refine reply_statRight (request_keepsStat (fun r s => ?_) m _ tag payload) hs h
  dsimp only
  split
  · exact s.statPriority_refuse r _ _
  · exact State.statPriority_answer _ r _ _

theorem execReadLog_statRight (hs : s.statRight) (h : execReadLog m tag payload s = .next t) : t.statRight := by
  refine reply_statRight (request_keepsStat (fun r s => ?_) m _ tag payload) hs h
  refine withReading_statPriority rfl fun target => ?_
  dsimp only
  split
  · exact s.statPriority_refuse r _ _
  · exact s.statPriority_answer r _ _

theorem execSlotQuery_statRight (hs : s.statRight) (h : execSlotQuery m tag payload s = .next t) : t.statRight := by
  refine reply_statRight (request_keepsStat (fun r s => ?_) m _ tag payload) hs h
  refine withMaster_statPriority rfl fun target => ?_
  split
  · exact s.statPriority_refuse r _ _
  · exact s.statPriority_answer r _ _

end

/-- Every command leaves STAT right. -/
theorem exec_statRight {c : Instr} {s t : State} (hs : s.statRight) (h : exec c s = .next t) : t.statRight := by
  cases c with
  | powerOn | nreset => cases h; exact partReset_statRight s _
  | partReset => exact execPartReset_statRight hs h
  | statBlinkToggle => cases h; exact blink_statRight hs
  | programEnd => exact execProgramEnd_statRight hs h
  | programTimeLimit => exact execProgramTimeLimit_statRight hs h
  | sectorEraseEnd => exact execSectorEraseEnd_statRight hs h
  | eraseTimeLimit => exact execEraseTimeLimit_statRight hs h
  | fuseAttemptEnd => exact execFuseAttemptEnd_statRight hs h
  | answerRead m | statusRead m | eventClear m | eventMask m =>
    exact reply_statRight (served_keepsStat (fun s => s.statPriority_modPort m _) m) hs h
  | unknownTransactionCode => exact execUnknownTransactionCode_statRight hs h
  | unknownRequest => exact execUnknownRequest_statRight hs h
  | requestFrameDiscarded => exact execRequestFrameDiscarded_statRight hs h
  | identify m tag payload | credList m tag payload =>
    exact reply_statRight (request_keepsStat (fun r s => s.statPriority_answer r _ _) m _ tag payload) hs h
  | masterState => exact execMasterState_statRight hs h
  | settingsRead m tag payload =>
    exact reply_statRight (request_keepsStat (fun r => settingsRead_keepsStat r _) m _ tag payload) hs h
  | credGet m tag payload =>
    exact reply_statRight (request_keepsStat (fun r => credGet_keepsStat m r payload) m _ tag payload) hs h
  | grantClose m tag payload =>
    refine reply_statRight (request_keepsStat (fun r s => ?_) m _ tag payload) hs h
    exact (State.statPriority_answer _ r _ _).trans (s.statPriority_modCreds rfl)
  | keyInfo => exact execKeyInfo_statRight hs h
  | keyFind => exact execKeyFind_statRight hs h
  | keyPublic => exact execKeyPublic_statRight hs h
  | derivePop => exact execDerivePop_statRight hs h
  | lockCell => exact execLockCell_statRight hs h
  | readCells m tag payload =>
    refine reply_statRight (request_keepsStat (fun r s => ?_) m _ tag payload) hs h
    exact withReading_statPriority rfl fun target => s.statPriority_answer r _ _
  | readLog => exact execReadLog_statRight hs h
  | slotQuery => exact execSlotQuery_statRight hs h
  | lockoutExpiry entry => exact reply_statRight (lockoutPassed_keepsStat entry) hs h
  | grantExpiry m => exact reply_statRight (grantPassed_keepsStat m) hs h
  | ownerButtonPress => exact reply_statRight buttonPressed_keepsStat hs h
  | ownerButtonRelease => exact reply_statRight buttonReleased_keepsStat hs h
  | _ =>
    simp only [exec] at h
    exact act_statRight hs h

/-- Settles O59: time that passes changes no condition, and every command leaves STAT right. -/
theorem everyStepKeepsStatRight : Obligations.EveryStepKeepsStatRight := by
  intro s t hs h
  unfold step at h
  split at h
  · cases h; exact hs
  · rename_i c rest _
    exact exec_statRight (s := { s with pending := rest }) hs h

/-- No fuse of an intact bank is blown (3.5). -/
theorem Fuses.blown_blank (f : FuseId) : Fuses.blank.blown f = false := by
  have row : ∀ k, Fuses.blank.row k = .blank := fun k => by rcases k with _ | _ | _ | k <;> rfl
  cases f with
  | serial | seed | revoke => exact BitVec.getLsbD_zero
  | identityWritten | closed => rfl
  | digest r | signerWritten r | signerDefective r => simp [Fuses.blown, row, SignerRow.blank]
  | counter m k => cases m <;> exact BitVec.getLsbD_zero

/-- Settles O60: the state after reset, field by field. -/
theorem resetMeetsWhatStepsKeep : Obligations.ResetMeetsWhatStepsKeep :=
  ⟨rfl, ⟨rfl, fun h => absurd h (show (4 : Nat) ≠ 1 by decide), fun _ => rfl⟩, rfl, ⟨_, rfl⟩, rfl, fun _ => rfl, Fuses.blown_blank⟩

end Sys2Proof.Machine
end

section
/-! The general requests that end in an answer or in a write: O4, O16, O17, O20, O21, O22. -/

namespace Sys2Proof.Machine

/-! ### PART-RESET (R108, R190) -/

/-- PART_RESET is APP's alone (R190). -/
theorem partReset_unavailable (s : State) {m : Master} (h : m ≠ .app) : s.available m .partReset = false := by
  simp [State.available, RequestName.avail, h]

/-- In OWNED a PART_RESET needs APP's grant (R108). -/
theorem partResetAllowed_iff {s : State} : s.partResetAllowed = true ↔ (s.creds.lifecycle = .owned → s.granted .app = true) := by
  simp only [State.partResetAllowed, Bool.or_eq_true, Bool.not_eq_true', decide_eq_false_iff_not]
  exact Decidable.imp_iff_not_or.symm

/-- A frame that reaches its owner is taken as a part reset if that is permitted (R108). -/
theorem partResetTaken_takes {s : State} {m : Master} {payload : Bytes} (h : s.takes m .partReset payload) :
    s.partResetTaken m payload = s.partResetAllowed := by
  obtain ⟨hphase, hreq, -, havail, hfits⟩ := h
  simp [State.partResetTaken, hphase, hreq, havail, hfits]

theorem partResetTaken_unavailable {s : State} {m : Master} (payload : Bytes) (h : s.available m .partReset = false) :
    s.partResetTaken m payload = false := by
  simp [State.partResetTaken, h]

theorem exec_partReset_taken {s : State} {m : Master} {payload : Bytes} (h : s.partResetTaken m payload = true) (tag : Byte) :
    exec (.partReset m tag payload) s = .next (s.partReset .request) := if_pos h

theorem exec_partReset_answered {s : State} {m : Master} {payload : Bytes} (h : s.partResetTaken m payload = false)
    (tag : Byte) :
    exec (.partReset m tag payload) s =
      reply (fun s => s.request m .partReset tag payload fun s r => s.refuse r .notPermitted) s :=
  if_neg (by simp [h])

/-- Settles O4. -/
theorem partResetsAreTaken : Obligations.PartResetsAreTaken := by
  intro s
  refine ⟨rfl, rfl, fun m tag payload => ⟨fun h hgrant => ?_, fun h howned hgrant => ?_, fun h hm => ?_⟩⟩
  · exact exec_partReset_taken ((partResetTaken_takes h).trans (partResetAllowed_iff.mpr hgrant)) tag
  · have hbarred : s.partResetAllowed = false := by simp [State.partResetAllowed, howned, hgrant]
    exact (exec_partReset_answered ((partResetTaken_takes h).trans hbarred) tag).trans
      (reply_request h (refuse_accept ..) rfl rfl rfl rfl rfl)
  · have havail := partReset_unavailable s hm
    exact (exec_partReset_answered (partResetTaken_unavailable payload havail) tag).trans
      (reply_next (request_barred h havail tag _) rfl rfl rfl rfl rfl)

/-! ### MASTER-STATE (R110) -/

theorem mayName_iff {m target : Master} : mayName m target = true ↔ m = .app ∨ m = target := by simp [mayName]

theorem mayName_false {m target : Master} (happ : m ≠ .app) (h : m ≠ target) : mayName m target = false := by
  simp [mayName, happ, h]

section
variable {s : State} {r : Req} {b : Byte}

theorem withMaster_none (h : Master.ofIdx b.toNat = none) (f : Master → State) : s.withMaster r b f = s.refuse r .badRequest := by
  simp only [State.withMaster, h]

theorem withMaster_some {m : Master} (h : Master.ofIdx b.toNat = some m) (f : Master → State) : s.withMaster r b f = f m := by
  simp only [State.withMaster, h]

/-- A flag byte above 1 is refused (R192). -/
theorem withFlag_above (h : 1 < b.toNat) (f : Bool → State) : s.withFlag r b f = s.refuse r .badRequest := by
  have h0 : b ≠ 0 := fun e => by simp [e] at h
  have h1 : b ≠ 1 := fun e => by simp [e] at h
  rw [State.withFlag, if_neg h0, if_neg h1]

theorem withFlag_within (h : ¬ 1 < b.toNat) (f : Bool → State) : s.withFlag r b f = f (decide (b = 1)) := by
  have h01 : b = 0 ∨ b = 1 := by bv_omega
  rcases h01 with rfl | rfl <;> rfl

end

/-- MASTER-STATE taken (R110). -/
def State.masterState (s : State) (m : Master) (r : Req) (which option : Byte) : State :=
  s.withMaster r which fun target =>
    s.withFlag r option fun clear =>
      if mayName m target then
        let s := s.answer r .ok (s.sup target).report
        if clear then s.modSup target fun x => { x with fault := .none } else s
      else s.refuse r .notPermitted

theorem exec_masterState (m : Master) (tag : Byte) (payload : Bytes) (s : State) :
    exec (.masterState m tag payload) s =
      reply (fun s => s.request m .masterState tag payload fun s r => s.masterState m r (byteAt 0 payload) (byteAt 1 payload)) s :=
  rfl

section
variable {s : State} {m target : Master} {r : Req} {which option : Byte} (hw : Master.ofIdx which.toNat = some target)
include hw

theorem masterState_badFlag (ho : 1 < option.toNat) : s.masterState m r which option = s.refuse r .badRequest :=
  (withMaster_some hw _).trans (withFlag_above ho _)

variable (ho : ¬ 1 < option.toNat)
include ho

theorem masterState_barred (h : m ≠ .app ∧ m ≠ target) : s.masterState m r which option = s.refuse r .notPermitted := by
  refine (withMaster_some hw _).trans ((withFlag_within ho _).trans (if_neg ?_))
  rw [mayName_false h.1 h.2]
  exact Bool.false_ne_true

theorem masterState_reports (h : ¬ (m ≠ .app ∧ m ≠ target)) :
    s.masterState m r which option =
      if option = 1 then (s.answer r .ok (s.sup target).report).modSup target fun x => { x with fault := .none }
      else s.answer r .ok (s.sup target).report := by
  have hname : mayName m target = true := mayName_iff.mpr (Decidable.or_iff_not_not_and_not.mpr h)
  refine (withMaster_some hw _).trans ((withFlag_within ho _).trans ((if_pos hname).trans ?_))
  simp only [decide_eq_true_eq]

end

/-- Settles O16: each test in its order, then the report. -/
theorem masterStateReportsTheRecord : Obligations.MasterStateReportsTheRecord := by
  refine ⟨fun m s => ?_, fun m tag payload s htakes => ?_⟩
  · cases h : s.creds.lifecycle <;> simp [State.available, RequestName.avail, h]
  · refine (exec_masterState m tag payload s).trans ?_
    have replied : ∀ {t : State}, (s.accept m tag 0x02).masterState m (s.nextReq m) (byteAt 0 payload) (byteAt 1 payload) = t →
        t.pending = s.pending → t.inbox = s.inbox → t.flash = s.flash → t.fuses = s.fuses → t.stat = s.stat →
        reply (fun s => s.request m .masterState tag payload fun s r =>
          s.masterState m r (byteAt 0 payload) (byteAt 1 payload)) s = .next t := fun h => reply_request htakes h
    cases hw : Master.ofIdx (byteAt 0 payload).toNat with
    | none => exact replied ((withMaster_none hw _).trans (refuse_accept ..)) rfl rfl rfl rfl rfl
    | some target =>
      dsimp only
      by_cases ho : 1 < (byteAt 1 payload).toNat
      · rw [if_pos ho]
        exact replied ((masterState_badFlag hw ho).trans (refuse_accept ..)) rfl rfl rfl rfl rfl
      · rw [if_neg ho]
        by_cases hname : m ≠ .app ∧ m ≠ target
        · rw [if_pos hname]
          exact replied ((masterState_barred hw ho hname).trans (refuse_accept ..)) rfl rfl rfl rfl rfl
        · have hreports := masterState_reports (s := s.accept m tag 0x02) (r := s.nextReq m) hw ho hname
          rw [answer_accept] at hreports
          rw [if_neg hname]
          by_cases hclear : byteAt 1 payload = 1
          · rw [if_pos hclear] at hreports ⊢
            exact replied hreports rfl rfl rfl rfl rfl
          · rw [if_neg hclear] at hreports ⊢
            exact replied hreports rfl rfl rfl rfl rfl

/-! ### ANNOUNCE (R101, R104) -/

theorem exec_announce (m : Master) (tag : Byte) (payload : Bytes) (s : State) :
    exec (.announce m tag payload) s = act (fun s => s.request m .announce tag payload fun s r => s.announce m r) s := rfl

/-- The Master Record as ANNOUNCE makes it RUNNING (R101). -/
def MasterRec.announced (x : MasterRec) : MasterRec := { x with phase := .running, window := none, contact := none }

/-- The trial window that begins with a state (R104). -/
def State.newTrial (s : State) : TrialWindow :=
  { last := s.ms, good := 0, errors := 0, token := s.random 4, deadline := s.ms + s.settings.trialMax,
    min := s.settings.trialMin, max := s.settings.trialMax, limit := s.settings.errorLimit }

section
variable {s : State} {m : Master} {r : Req}

theorem announce_refused (h : ¬ ((s.sup m).phase = .booting ∧ (s.sup m).window = some .open)) :
    s.announce m r = s.refuse r .state := if_neg h

variable (h : (s.sup m).phase = .booting ∧ (s.sup m).window = some .open)
include h

theorem announce_trial (hfail : (s.sup m).bootFailures = 0) (ht : (s.sup m).servedState = some .trial) :
    s.announce m r =
      (({ s with rng := s.rng + 4 } : State).modSup m fun x => { x.announced with trial := some s.newTrial }).announced r := by
  refine (if_pos h).trans ?_
  simp only [ht, if_true, hfail, State.startTrial, State.modSup, Tri.get_set_same, Tri.set_set]
  rfl

variable (ht : (s.sup m).servedState ≠ some .trial)
include ht

theorem announce_runs (hfail : (s.sup m).bootFailures = 0) :
    s.announce m r = (s.modSup m MasterRec.announced).announced r := by
  refine (if_pos h).trans ?_
  simp only [ht, if_false, hfail, if_true]
  rfl

theorem announce_clears (hfail : (s.sup m).bootFailures ≠ 0) :
    s.announce m r = ((s.modSup m MasterRec.announced).setWork r .other).submitRemoval .bootfail m.idx (.bootFailClear m (some r)) := by
  refine (if_pos h).trans ?_
  simp only [ht, if_false, hfail]
  rfl

end

/-- The answer to an ANNOUNCE of a master that another update of its record made RUNNING (R101). -/
theorem announced_accept (s : State) (m : Master) (tag code : Byte) (f : MasterRec → MasterRec) :
    ((s.accept m tag code).modSup m f).announced (s.nextReq m) =
      (s.modSup m f).told m tag code .ok ([(f (s.sup m)).served.code, servedStateCode (f (s.sup m)).servedState] ++
        (match (f (s.sup m)).trial with
         | some w => w.token
         | none => [])) := by
  have hsup : ((s.accept m tag code).modSup m f).sup m = f (s.sup m) := State.sup_modSup ..
  simp only [State.announced, State.port_nextReq, hsup]
  exact answer_later (t := (s.accept m tag code).modSup m f) .ok _

/-- Settles O17: the request as accepted is refused, made RUNNING and answered, or left waiting for the removal. -/
theorem announceEndsTheBootAttempt : Obligations.AnnounceEndsTheBootAttempt := by
  intro m tag payload s htakes hi open_ running
  have hexec := exec_announce m tag payload s
  refine ⟨fun hopen => ?_, fun hopen hfail hserved htrial => ?_, fun hopen hfail hserved => ?_, fun hopen hfail hserved ht => ?_⟩
  · exact exec_refusal hexec htakes hi (announce_refused (s := s.accept m tag 0x03) hopen)
  · have hruns := (announce_runs (s := s.accept m tag 0x03) (r := s.nextReq m) hopen hserved hfail).trans
      (announced_accept s m tag 0x03 _)
    have hnone : (s.sup m).announced.trial = none := htrial
    rw [hnone, List.append_nil] at hruns
    exact hexec.trans (act_request htakes hi hruns hi rfl rfl rfl rfl)
  · have hruns := (announce_trial (s := s.accept m tag 0x03) (r := s.nextReq m) hopen hfail hserved).trans
      (announced_accept { s with rng := s.rng + 4 } m tag 0x03 _)
    have hcode : servedStateCode (s.sup m).servedState = 0 := by rw [hserved]; rfl
    rw [← hcode]
    exact hexec.trans (act_request htakes hi hruns hi rfl rfl rfl rfl)
  · have hclears := announce_clears (s := s.accept m tag 0x03) (r := s.nextReq m) hopen hserved hfail
    rw [setWork_later (t := (s.accept m tag 0x03).modSup m MasterRec.announced) .other] at hclears
    exact hexec.trans (act_writing htakes hi (hclears.trans
      (submitWrite_taken ((s.modSup m running).working m tag 0x03 .other) _ ht rfl)) hi rfl rfl rfl rfl)

/-! ### SETTINGS-READ and SETTINGS-WRITE (R112, R113) -/

theorem exec_settingsRead (m : Master) (tag : Byte) (payload : Bytes) (s : State) :
    exec (.settingsRead m tag payload) s =
      reply (fun s => s.request m .settingsRead tag payload fun s r => s.settingsRead r (byteAt 0 payload)) s := rfl

section
variable {s : State} {v : Settings}

/-- The effective settings with their source: the owner's, else the factory's, else the defaults (R111, R113). -/
theorem settings_owner (h : s.creds.ownerSettings = some v) : s.creds.settingsSource :: s.settings.bytes = 0 :: v.bytes := by
  simp [CredMgr.settingsSource, State.settings, h]

theorem settings_factory (ho : s.creds.ownerSettings = none) (hf : s.creds.factorySettings = some v) :
    s.creds.settingsSource :: s.settings.bytes = 1 :: v.bytes := by
  simp [CredMgr.settingsSource, State.settings, ho, hf]

theorem settings_default (ho : s.creds.ownerSettings = none) (hf : s.creds.factorySettings = none) :
    s.creds.settingsSource :: s.settings.bytes = 2 :: Settings.default.bytes := by
  simp [CredMgr.settingsSource, State.settings, ho, hf]

end

section
variable {s : State} {r : Req}

theorem settingsRead_effective {data : Bytes} (h : s.creds.settingsSource :: s.settings.bytes = data) :
    s.settingsRead r 0 = s.answer r .ok data := congrArg (s.answer r .ok) h

theorem settingsRead_factory {v : Settings} (h : s.creds.factorySettings = some v) :
    s.settingsRead r 1 = s.answer r .ok (1 :: v.bytes) := by simp [State.settingsRead, h]

theorem settingsRead_noFactory (h : s.creds.factorySettings = none) : s.settingsRead r 1 = s.refuse r .notFound := by
  simp [State.settingsRead, h]

theorem settingsRead_owner {v : Settings} (h : s.creds.ownerSettings = some v) :
    s.settingsRead r 2 = s.answer r .ok (0 :: v.bytes) := by simp [State.settingsRead, h]

theorem settingsRead_noOwner (h : s.creds.ownerSettings = none) : s.settingsRead r 2 = s.refuse r .notFound := by
  simp [State.settingsRead, h]

theorem settingsRead_unknown {b : Byte} (h0 : b ≠ 0) (h1 : b ≠ 1) (h2 : b ≠ 2) :
    s.settingsRead r b = s.refuse r .badRequest := (if_neg h0).trans ((if_neg h1).trans (if_neg h2))

end

/-- Settles O20: the set that each value of the operand names. -/
theorem settingsReadReturnsASet : Obligations.SettingsReadReturnsASet := by
  intro m tag payload s htakes
  have hexec := exec_settingsRead m tag payload s
  generalize byteAt 0 payload = which at hexec ⊢
  refine hexec.trans ?_
  have answered : ∀ {st data}, (s.accept m tag 0x06).settingsRead (s.nextReq m) which =
      (s.accept m tag 0x06).answer (s.nextReq m) st data →
      reply (fun s => s.request m .settingsRead tag payload fun s r => s.settingsRead r which) s =
        .next (s.told m tag 0x06 st data) := fun h =>
    reply_request htakes (h.trans (answer_accept ..)) rfl rfl rfl rfl rfl
  by_cases h0 : which = 0
  · subst h0
    cases ho : s.creds.ownerSettings with
    | some v => exact answered (settingsRead_effective (settings_owner (s := s.accept m tag 0x06) ho))
    | none =>
      cases hf : s.creds.factorySettings with
      | some v => exact answered (settingsRead_effective (settings_factory (s := s.accept m tag 0x06) ho hf))
      | none => exact answered (settingsRead_effective (settings_default (s := s.accept m tag 0x06) ho hf))
  by_cases h1 : which = 1
  · subst h1
    cases hf : s.creds.factorySettings with
    | some v => exact answered (settingsRead_factory hf)
    | none => exact answered (settingsRead_noFactory hf)
  by_cases h2 : which = 2
  · subst h2
    cases ho : s.creds.ownerSettings with
    | some v => exact answered (settingsRead_owner ho)
    | none => exact answered (settingsRead_noOwner ho)
  rw [if_neg h0, if_neg h1, if_neg h2]
  exact answered (settingsRead_unknown h0 h1 h2)

theorem exec_settingsWrite (m : Master) (tag : Byte) (payload : Bytes) (s : State) :
    exec (.settingsWrite m tag payload) s =
      act (fun s => s.request m .settingsWrite tag payload fun s r => s.settingsWrite m r payload) s := rfl

section
variable {s : State} {m : Master} {r : Req} {payload : Bytes}

theorem settingsWrite_notPermitted (h : s.creds.lifecycle = .owned ∧ s.granted m = false) :
    s.settingsWrite m r payload = s.refuse r .notPermitted := by
  simp [State.settingsWrite, h.1, h.2]

variable (h : ¬ (s.creds.lifecycle = .owned ∧ s.granted m = false))
include h

theorem settingsWrite_outOfRange (hv : (Settings.ofBytes payload).inRange = false) :
    s.settingsWrite m r payload = s.refuse r .badRequest := by
  have hbar : (decide (s.creds.lifecycle = .owned) && !s.granted m) = false := by simpa using h
  simp only [State.settingsWrite, hbar, hv, if_true, Bool.false_eq_true, if_false]

/-- Settings in their ranges are written to the record of the lifecycle (R112). -/
theorem settingsWrite_writes (hv : ¬ (Settings.ofBytes payload).inRange = false) :
    s.settingsWrite m r payload = (s.setWork r .other).submitWrite
      ⟨if s.creds.lifecycle = .owned then .settingsOwner else .settingsFactory, 0, (Settings.ofBytes payload).bytes, false,
        .settings (decide (s.creds.lifecycle = .owned)) (Settings.ofBytes payload) r⟩ := by
  have hbar : (decide (s.creds.lifecycle = .owned) && !s.granted m) = false := by simpa using h
  simp only [State.settingsWrite, hbar, hv, Bool.false_eq_true, reduceCtorEq, if_false, decide_eq_true_eq]

end

/-- Settles O21. -/
theorem settingsWriteWritesTheRecord : Obligations.SettingsWriteWritesTheRecord := by
  intro m tag payload s htakes hi ht
  have hexec := exec_settingsWrite m tag payload s
  have written : ∀ w : Write, w.for_.plain = true →
      (s.accept m tag 0x07).settingsWrite m (s.nextReq m) payload =
        ((s.accept m tag 0x07).setWork (s.nextReq m) .other).submitWrite w →
      exec (.settingsWrite m tag payload) s = .next ((s.working m tag 0x07 .other).writing w).updateStat := by
    intro w hw h
    rw [setWork_accept, submitWrite_taken (s.working m tag 0x07 .other) w ht hw] at h
    exact hexec.trans (act_writing htakes hi h hi rfl rfl rfl rfl)
  dsimp only
  by_cases hgrant : s.creds.lifecycle = .owned ∧ s.granted m = false
  · rw [if_pos hgrant]
    exact exec_refusal hexec htakes hi (settingsWrite_notPermitted (s := s.accept m tag 0x07) hgrant)
  by_cases hv : (Settings.ofBytes payload).inRange = false
  · rw [if_neg hgrant, if_pos hv]
    exact exec_refusal hexec htakes hi (settingsWrite_outOfRange (s := s.accept m tag 0x07) hgrant hv)
  have hwrites := settingsWrite_writes (s := s.accept m tag 0x07) (r := s.nextReq m) hgrant hv
  rw [State.creds_accept] at hwrites
  rw [if_neg hgrant, if_neg hv]
  by_cases howned : s.creds.lifecycle = .owned
  · rw [if_pos howned]
    rw [if_pos howned, decide_eq_true howned] at hwrites
    exact written _ rfl hwrites
  · rw [if_neg howned]
    rw [if_neg howned, decide_eq_false howned] at hwrites
    exact written _ rfl hwrites

/-! ### TRIAL-CHECK (R104) -/

theorem exec_trialCheck (m : Master) (tag : Byte) (payload : Bytes) (s : State) :
    exec (.trialCheck m tag payload) s =
      act (fun s => s.request m .trialCheck tag payload fun s r => s.trialCheck m r (slice 0 4 payload)) s := rfl

/-- A trial window after a good check (R104). -/
def TrialWindow.passed (w : TrialWindow) (now : Nat) (token : Bytes) : TrialWindow :=
  { w with good := w.good + 1, last := now, deadline := now + w.max, token := token }

/-- A trial window after a check that counts as an error (R104). -/
def TrialWindow.missed (w : TrialWindow) (token : Bytes) : TrialWindow := { w with errors := w.errors + 1, token := token }

section
variable {s : State} {m : Master} {r : Req} {token : Bytes}

theorem trialCheck_noTrial (h : (s.sup m).trial = none) : s.trialCheck m r token = s.refuse r .state := by
  simp only [State.trialCheck, h]

variable {w : TrialWindow} (h : (s.sup m).trial = some w)
include h

theorem trialCheck_good (hgood : w.min ≤ s.ms - w.last ∧ token = w.token) (hcount : w.good < 2) :
    s.trialCheck m r token =
      (({ s with rng := s.rng + 4 } : State).modSup m fun x =>
        { x with trial := some (w.passed s.ms (newToken w.token (s.random 4))) }).answer r .ok
          (BitVec.ofNat 8 (w.good + 1) :: newToken w.token (s.random 4)) := by
  simp only [State.trialCheck, h, if_pos hgood]
  exact if_neg (by omega)

theorem trialCheck_bad (hbad : ¬ (w.min ≤ s.ms - w.last ∧ token = w.token)) (hlimit : w.errors + 1 < w.limit) :
    s.trialCheck m r token =
      (({ s with rng := s.rng + 4 } : State).modSup m fun x =>
        { x with trial := some (w.missed (newToken w.token (s.random 4))) }).answer r .trialError
          ([0, BitVec.ofNat 8 (w.errors + 1)] ++ newToken w.token (s.random 4)) := by
  simp only [State.trialCheck, h, if_neg hbad]
  exact if_pos hlimit

end

/-- Settles O22: the two kinds of checks, in a state in which the request is accepted. -/
theorem trialCheckCountsGoodAndBad : Obligations.TrialCheckCountsGoodAndBad := by
  intro m tag payload s htakes hi drawn code
  have hexec := exec_trialCheck m tag payload s
  obtain ⟨-, -, -, -, hfits⟩ := id htakes
  rw [slice_zero_of_fits hfits] at hexec
  have answered : ∀ {f : MasterRec → MasterRec} {st : Status} {data : Bytes},
      (s.accept m tag 0x16).trialCheck m (s.nextReq m) payload =
        (({ s.accept m tag 0x16 with rng := s.rng + 4 } : State).modSup m f).answer (s.nextReq m) st data →
      exec (.trialCheck m tag payload) s =
        .next ((({ s with rng := s.rng + 4 } : State).modSup m f).told m tag 0x16 st data).updateStat := fun {f st data} h =>
    hexec.trans (act_request htakes hi (h.trans
      (answer_later (t := ({ s.accept m tag 0x16 with rng := s.rng + 4 } : State).modSup m f) st data)) hi rfl rfl rfl rfl)
  refine ⟨fun hnone => ?_, fun w hw => ?_⟩
  · exact exec_refusal hexec htakes hi (trialCheck_noTrial (s := s.accept m tag 0x16) hnone)
  · refine ⟨fun hgood hcount => ?_, fun hbad hlimit => ?_⟩
    · exact answered (trialCheck_good (s := s.accept m tag 0x16) hw hgood hcount)
    · exact answered (trialCheck_bad (s := s.accept m tag 0x16) hw hbad hlimit)

end Sys2Proof.Machine
end

section
/-! What a master reset leaves (R92), and the requests and deadlines that make one: O18, O19, O49. -/

namespace Sys2Proof.Machine

/-! ### Frames of the steps of a master reset (R92) -/

/-- STAT's evaluation changes STAT alone. -/
theorem updateStat_stat (s : State) : ∃ st, s.updateStat = { s with stat := st } := by
  unfold State.updateStat
  split
  · exact ⟨s.stat, rfl⟩
  · exact ⟨_, rfl⟩

/-- Time that passes changes the clock and the Flash Controller's active times alone. -/
theorem untilMs_clock (s : State) (d : Nat) : ∃ now c, s.untilMs d = { s with clock := now, ctl := c } := by
  unfold State.untilMs State.until
  split
  · exact ⟨_, _, rfl⟩
  · exact ⟨s.clock, s.ctl, rfl⟩

theorem dropKeyHolds_holds (s : State) (m : Master) :
    ∃ h, s.dropKeyHolds m = { s with keys := { s.keys with holds := h } } := by
  unfold State.dropKeyHolds
  split
  · exact ⟨_, rfl⟩
  · exact ⟨_, rfl⟩
  · exact ⟨s.keys.holds, rfl⟩

theorem dropCredHolds_holds (s : State) (m : Master) :
    ∃ h d, s.dropCredHolds m = { s with creds := { s.creds with holds := h, deleted := d } } := by
  unfold State.dropCredHolds
  split
  · exact ⟨_, _, rfl⟩
  · exact ⟨_, s.creds.deleted, rfl⟩
  · exact ⟨s.creds.holds, s.creds.deleted, rfl⟩

theorem orphanPort_dropKept_engine (s : State) (m : Master) :
    ∃ e, (s.orphanPort m).dropKept m = { s with engine := e } := ⟨_, rfl⟩

/-- A cut transaction reaches the Flash Controller, the free values and its port, whose count of frames stays (R180). -/
theorem cutBoot_port (s : State) (m : Master) :
    ∃ c n p, (s.cutBoot m).dropBootRead m = { s with ctl := c, free := n, ports := s.ports.set m p } ∧ p.no = (s.port m).no := by
  have cut : ∃ c n p, s.cutBoot m = { s with ctl := c, free := n, ports := s.ports.set m p } ∧ p.no = (s.port m).no := by
    cases hb : (s.port m).boot with
    | none => exact ⟨s.ctl, s.free, s.port m, by rw [cutBoot_none hb, State.port, Tri.set_get], rfl⟩
    | some b =>
      obtain ⟨c, out, h⟩ := bootEnded_frame (s.usedFree 2) m (Config.freeCount s.free) (b.lead + Config.freeCount (s.free + 1))
      have hcut : s.cutBoot m = (s.usedFree 2).bootEnded m (Config.freeCount s.free) (b.lead + Config.freeCount (s.free + 1)) := by
        unfold State.cutBoot
        rw [hb]
      exact ⟨c, s.free + 2, _, hcut.trans h, by rw [apply_ite Port.no, ite_self]; rfl⟩
  obtain ⟨c, n, p, h, hno⟩ := cut
  obtain ⟨c', hdrop⟩ := dropBootRead_ctl (s.cutBoot m) m
  exact ⟨c', n, p, by rw [hdrop, h], hno⟩

/-- The master owns no staging session (5.1). -/
def State.ownsNoSession (s : State) (m : Master) : Prop :=
  ∀ i : SlotId, ¬ ((s.slot i).owner = some m ∧ (s.slot i).state.staging = true)

theorem foldl_fixed {α β : Type} {f : α → β → α} {a : α} (h : ∀ b, f a b = a) : ∀ l : List β, l.foldl f a = a
  | [] => rfl
  | b :: l => by rw [List.foldl_cons, h b, foldl_fixed h l]

/-- With no session of the master's there is none to end (R81). -/
theorem endSessions_none {s : State} {m : Master} (h : s.ownsNoSession m) : s.endSessions m = s :=
  foldl_fixed (fun i => if_neg (h i)) _

/-! ### The whole master reset (R92) -/

/-- What the rules of a master reset leave to its parts: the boot read's end, the jobs of the port, the holds given up, the commits
not begun, and the bytes the port drove last. -/
structure ResetRest where
  ctl : FlashCtl
  free : Nat
  engine : Engine
  keyHolds : List KeyHold
  credHolds : List CredHold
  deleted : List Req
  waitingCommits : List CommitReq
  commit : Option Commit
  out : Bytes

/-- `s` after a master reset of `m` that ends no session, but for the fault reason of its cause (R92). -/
def State.resetOf (s : State) (m : Master) (x : ResetRest) : State :=
  { s with
    ctl := x.ctl, free := x.free, engine := x.engine
    image := { s.image with waitingCommits := x.waitingCommits, commit := x.commit }
    keys := { s.keys with holds := x.keyHolds, stackOf := s.keys.stackOf.set m [] }
    meas := { s.meas with sets := s.meas.sets.set m (s.meas.sets.get m).cleared }
    creds := { s.creds with holds := x.credHolds, deleted := x.deleted, grants := s.creds.grants.set m none }
    sups := s.sups.set m ((s.sups.get m).afterReset s.ms false)
    ports := s.ports.set m { Port.reset with no := (s.port m).no, out := x.out } }

/-- What a master reset drops before the port and the Master Record are reset. -/
theorem masterReset_drops (s : State) (m : Master) :
    ∃ ctl free engine keyHolds credHolds deleted p, p.no = (s.port m).no ∧
      (((((s.dropKeyHolds m).dropCredHolds m).orphanPort m).dropKept m).cutBoot m).dropBootRead m =
        { s with
          ctl := ctl, free := free, engine := engine, keys := { s.keys with holds := keyHolds }
          creds := { s.creds with holds := credHolds, deleted := deleted }, ports := s.ports.set m p } := by
  obtain ⟨keyHolds, hkeys⟩ := dropKeyHolds_holds s m
  generalize s.dropKeyHolds m = u at hkeys ⊢
  obtain ⟨credHolds, deleted, hcreds⟩ := dropCredHolds_holds u m
  generalize u.dropCredHolds m = v at hcreds ⊢
  obtain ⟨engine, hengine⟩ := orphanPort_dropKept_engine v m
  generalize (v.orphanPort m).dropKept m = w at hengine ⊢
  obtain ⟨ctl, free, p, hcut, hno⟩ := cutBoot_port w m
  subst hengine hcreds hkeys
  exact ⟨ctl, free, engine, keyHolds, credHolds, deleted, p, hno, hcut⟩

/-- A master reset is that of its parts, then its cause's fault reason is set. -/
theorem masterReset_resetOf {s : State} {m : Master} (h : (s.sup m).phase ≠ .held) (hown : s.ownsNoSession m)
    (fault : Option FaultReason) :
    ∃ x, s.masterReset m fault = fault.elim (s.resetOf m x) fun f => (s.resetOf m x).setFault m f := by
  obtain ⟨ctl, free, engine, keyHolds, credHolds, deleted, p, hno, hdrops⟩ := masterReset_drops s m
  refine ⟨⟨ctl, free, engine, keyHolds, credHolds, deleted, (s.dropConfirmation m).image.waitingCommits,
    (s.dropConfirmation m).image.commit, p.out⟩, ?_⟩
  unfold State.masterReset
  simp only [h, if_false, Bool.false_eq_true, hdrops]
  rw [endSessions_none]
  · simp only [State.modPort, Tri.get_set_same, Tri.set_set, Port.afterReset, hno]
    cases fault <;> rfl
  · exact hown

section
variable (s : State) (m : Master) (x : ResetRest)

@[simp] theorem State.sup_resetOf : (s.resetOf m x).sup m = (s.sup m).afterReset s.ms false := Tri.get_set_same _ _ _
@[simp] theorem State.port_resetOf : (s.resetOf m x).port m = { Port.reset with no := (s.port m).no, out := x.out } :=
  Tri.get_set_same _ _ _
@[simp] theorem State.measSet_resetOf : (s.resetOf m x).measSet m = (s.measSet m).cleared := Tri.get_set_same _ _ _
@[simp] theorem State.stackOf_resetOf : (s.resetOf m x).keys.stackOf.get m = [] := Tri.get_set_same _ _ _
@[simp] theorem State.grant_resetOf : (s.resetOf m x).creds.grants.get m = none := Tri.get_set_same _ _ _

variable {k : Master} (h : k ≠ m)
include h

theorem State.sup_resetOf_other : (s.resetOf m x).sup k = s.sup k := Tri.get_set_other _ _ _ _ h
theorem State.port_resetOf_other : (s.resetOf m x).port k = s.port k := Tri.get_set_other _ _ _ _ h
theorem State.measSet_resetOf_other : (s.resetOf m x).measSet k = s.measSet k := Tri.get_set_other _ _ _ _ h
theorem State.stackOf_resetOf_other : (s.resetOf m x).keys.stackOf.get k = s.keys.stackOf.get k := Tri.get_set_other _ _ _ _ h
theorem State.grant_resetOf_other : (s.resetOf m x).creds.grants.get k = s.creds.grants.get k := Tri.get_set_other _ _ _ _ h

end

/-! ### Fault reasons (R109) -/

theorem modSup_congr {s : State} {m : Master} {f g : MasterRec → MasterRec} (h : f (s.sup m) = g (s.sup m)) :
    s.modSup m f = s.modSup m g := by
  have h : f (s.sups.get m) = g (s.sups.get m) := h
  simp only [State.modSup, h]

theorem modSup_self (s : State) (m : Master) : s.modSup m (fun x => x) = s := by simp only [State.modSup, Tri.set_get]

/-- A fault reason other than NONE raises FAULT on its master's port and, for RADIO and LINE, PEER on APP's (R109). -/
theorem setFault_app {s : State} {f : FaultReason} (hf : f ≠ .none) :
    s.setFault .app f = (s.modSup .app fun x => { x with fault := f }).raise .app flagFault := by
  simp only [State.setFault, hf, if_false, if_true]

theorem setFault_other {s : State} {m : Master} {f : FaultReason} (hf : f ≠ .none) (hm : m ≠ .app) :
    s.setFault m f = ((s.modSup m fun x => { x with fault := f }).raise m flagFault).raise .app flagPeer := by
  simp only [State.setFault, hf, hm, if_false]

section
variable (s : State) (m : Master) (flag : BitVec 8)

@[simp] theorem State.port_raise : (s.raise m flag).port m = { s.port m with flags := (s.port m).flags ||| flag } :=
  State.port_modPort ..

theorem State.port_raise_other {k : Master} (h : k ≠ m) : (s.raise m flag).port k = s.port k :=
  State.port_modPort_other _ _ _ _ h

end

/-- A fault reason reaches its Master Record and the event flags alone. -/
theorem setFault_frame (s : State) (m : Master) (f : FaultReason) :
    ∃ ports, s.setFault m f = { s.modSup m (fun x => { x with fault := f }) with ports := ports } := by
  by_cases hf : f = .none
  · subst hf
    exact ⟨s.ports, rfl⟩
  by_cases hm : m = .app
  · subst hm
    exact ⟨_, setFault_app hf⟩
  · exact ⟨_, setFault_other hf hm⟩

section
variable (s : State) {m : Master} {f : FaultReason} (hf : f ≠ .none)
include hf

theorem port_setFault_same : (s.setFault m f).port m = { s.port m with flags := (s.port m).flags ||| flagFault } := by
  by_cases hm : m = .app
  · subst hm
    rw [setFault_app hf, State.port_raise]
    rfl
  · rw [setFault_other hf hm, State.port_raise_other _ _ _ hm, State.port_raise]
    rfl

variable {k : Master} (hk : k ≠ m)
include hk

/-- Only APP's port hears of another master's fault reason (R109). -/
theorem port_setFault_other (happ : k ≠ .app) : (s.setFault m f).port k = s.port k := by
  by_cases hm : m = .app
  · subst hm
    rw [setFault_app hf, State.port_raise_other _ _ _ hk]
    rfl
  · rw [setFault_other hf hm, State.port_raise_other _ _ _ happ, State.port_raise_other _ _ _ hk]
    rfl

theorem port_setFault_flags : ∃ flags, (s.setFault m f).port k = { s.port k with flags := flags } := by
  by_cases happ : k = .app
  · subst happ
    rw [setFault_other hf (Ne.symm hk), State.port_raise, State.port_raise_other _ _ _ hk]
    exact ⟨_, rfl⟩
  · exact ⟨_, port_setFault_other s hf hk happ⟩

end

/-! ### RESTART (R98, R107) -/

theorem exec_restart (m target : Master) (tag : Byte) (s : State) :
    exec (.restart m tag [BitVec.ofNat 8 target.idx]) s =
      act (fun s => s.request m .restart tag [BitVec.ofNat 8 target.idx] fun s r =>
        if mayName m target then s.restart m target r else s.refuse r .notPermitted) s := by
  cases target <;> rfl

section
variable {s : State} {m target : Master} {r : Req}

theorem restart_restarting (h : (s.sup target).phase = .held) (hh : (s.sup target).hold = some .restarting) :
    s.restart m target r = s.answer r .ok [] := by
  have hleave : s.leaveRecovery target = s := leaveRecovery_none (by rw [hh]; decide)
  simp only [State.restart, h, if_true, hleave]

/-- A master in recovery for less than 50 ms is HELD(RESTARTING) until they have passed, and its boot choice waits (R98). -/
theorem leaveRecovery_early (h : (s.sup m).phase = .held) (hh : (s.sup m).hold = some .recovery)
    (hearly : s.ms < (s.sup m).assertedAt + 50) :
    s.leaveRecovery m = (s.modSup m fun x =>
      { x with hold := some .restarting, holdDeadline := some (x.assertedAt + 50) }).post (.tryChoice m) := by
  refine (if_pos ⟨h, hh⟩).trans (congrArg (fun t : State => t.post (.tryChoice m)) (modSup_congr ?_))
  rw [Nat.max_eq_right (Nat.le_of_lt hearly)]

end

/-- Settles O18: the request that is refused, the hold that stays, and the one that becomes RESTARTING with a boot choice that finds
its deadline ahead. -/
theorem restartOfAHeldMaster : Obligations.RestartOfAHeldMaster := by
  intro m target tag s htakes hi c
  have hexec := exec_restart m target tag s
  refine ⟨fun happ hm => ?_, fun happ hheld hhold => ?_, fun happ hheld hhold hearly => ?_⟩
  · exact exec_refusal hexec htakes hi (if_neg (by simp [mayName_false happ hm]))
  · refine hexec.trans (act_request htakes hi ((if_pos (mayName_iff.mpr (.inl happ))).trans ?_) hi rfl rfl rfl rfl)
    exact (restart_restarting (s := s.accept m tag 0x04) hheld hhold).trans (answer_accept ..)
  · have hname : mayName m target = true := mayName_iff.mpr (.inl happ)
    let waits : State := s.modSup target fun x => { x with hold := some .restarting, holdDeadline := some (x.assertedAt + 50) }
    have hrestart : (s.accept m tag 0x04).restart m target (s.nextReq m) =
        { waits.told m tag 0x04 .ok [] with inbox := [.tryChoice target] } := by
      have hleave := leaveRecovery_early (s := s.accept m tag 0x04) hheld hhold hearly
      have hphase : ((s.accept m tag 0x04).sup target).phase = .held := hheld
      simp only [State.restart, hphase, if_true, hleave]
      rw [← post_calm (s := waits.told m tag 0x04 .ok []) hi]
      exact answer_later (t := (waits.accept m tag 0x04).post (.tryChoice target)) .ok []
    have hsup : waits.sup target = _ := State.sup_modSup ..
    have hchoice : (waits.told m tag 0x04 .ok []).tryChoice target = waits.told m tag 0x04 .ok [] := by
      refine tryChoice_early (d := (s.sup target).assertedAt + 50) ?_ ?_ hearly
      · rw [State.sup_told, hsup]
        exact hheld
      · rw [State.sup_told, hsup]
    exact hexec.trans (act_settles hi ((request_taken htakes tag _).trans ((if_pos hname).trans hrestart))
      (.tryChoice hi hchoice (.calm hi)) (by decide) rfl rfl rfl rfl)

section
variable {s : State} {m target : Master} {r : Req} (hphase : (s.sup target).phase ≠ .held) (hown : s.ownsNoSession target)
include hphase hown

/-- A master's RESTART of itself makes a master reset, which ends its own request (R107, R188). -/
theorem restart_self (hr : r.port = target) : ∃ x, s.restart target target r = s.resetOf target x := by
  obtain ⟨x, hreset⟩ := masterReset_resetOf hphase hown none
  refine ⟨x, ?_⟩
  have hdead : (s.resetOf target x).live r = false := by
    simp only [State.live, hr, State.port_resetOf]
    rfl
  simp only [State.restart, hphase, if_false, if_true, hreset, Option.elim_none, State.answer, hdead, Bool.false_eq_true]

/-- APP's RESTART of another master makes a master reset with RESTARTED, and is answered (R107). -/
theorem restart_other (hm : m ≠ target) :
    ∃ x, s.restart m target r = ((s.resetOf target x).setFault target .restarted).answer r .ok [] := by
  obtain ⟨x, hreset⟩ := masterReset_resetOf hphase hown (some .restarted)
  refine ⟨x, ?_⟩
  simp only [State.restart, hphase, if_false, hm.symm, hreset, Option.elim_some]

/-- What a RESTART that is accepted leaves of the ports, beside the master reset (R92, R107, R188). -/
theorem restart_resets (hr : r.port = m) (hlive : s.live r = true) (hm : m = .app ∨ m = target) :
    ∃ x ports, s.restart m target r =
        { (s.resetOf target x).modSup target (fun y => { y with fault := if m = target then y.fault else .restarted }) with
          ports := ports } ∧
      (∃ no out, ports.get target =
        { Port.reset with no := no, out := out, flags := if m = target then 0 else flagFault }) ∧
      (m ≠ target → (ports.get m).answer = some ⟨.ok, (s.port m).tag, []⟩ ∧ (ports.get m).req = .answered) ∧
      ∀ k, k ≠ target → k ≠ m → ports.get k = s.port k := by
  by_cases hself : m = target
  · subst hself
    obtain ⟨x, h⟩ := restart_self hphase hown hr
    refine ⟨x, (s.resetOf m x).ports, ?_, ⟨(s.port m).no, x.out, ?_⟩, fun hne => absurd rfl hne, fun k hk _ => ?_⟩
    · rw [h]
      simp only [if_true]
      exact (modSup_self _ m).symm
    · rw [if_pos rfl]
      exact s.port_resetOf m x
    · exact s.port_resetOf_other m x hk
  · have happ : m = .app := hm.resolve_right hself
    obtain ⟨x, h⟩ := restart_other (r := r) hphase hown hself
    have hreason : FaultReason.restarted ≠ .none := by decide
    obtain ⟨ports, hfault⟩ := setFault_frame (s.resetOf target x) target .restarted
    obtain ⟨flags, hflags⟩ := port_setFault_flags (s.resetOf target x) hreason hself
    rw [s.port_resetOf_other target x hself] at hflags
    have hlive' : ((s.resetOf target x).setFault target .restarted).live r = true := by
      rw [← hlive, State.live, State.live, hr, hflags]
    rw [answer_live hlive', hr] at h
    generalize hg : (fun p : Port => { p with
      req := .answered, answer := some ⟨.ok, p.tag, []⟩, flags := p.flags ||| flagAnswer, work := .none }) = g at h
    refine ⟨x, (((s.resetOf target x).setFault target .restarted).modPort m g).ports, ?_,
      ⟨(s.port target).no, x.out, ?_⟩, fun _ => ?_, fun k hk hkm => ?_⟩
    · rw [h, hfault]
      simp only [hself, if_false]
      rfl
    · refine (State.port_modPort_other _ m target _ (Ne.symm hself)).trans ((port_setFault_same _ hreason).trans ?_)
      rw [State.port_resetOf, if_neg hself]
      have hflag : Port.reset.flags ||| flagFault = flagFault := by decide
      exact congrArg (fun raised => { Port.reset with no := (s.port target).no, out := x.out, flags := raised }) hflag
    · subst hg
      have hport := State.port_modPort ((s.resetOf target x).setFault target .restarted) m fun p =>
        { p with req := .answered, answer := some ⟨.ok, p.tag, []⟩, flags := p.flags ||| flagAnswer, work := .none }
      rw [hflags] at hport
      exact ⟨congrArg Port.answer hport, congrArg Port.req hport⟩
    · have happ : k ≠ .app := happ ▸ hkm
      exact (State.port_modPort_other _ m k _ hkm).trans
        ((port_setFault_other _ hreason hk happ).trans (s.port_resetOf_other target x hk))

end

/-- Settles O19: the field of each block in the state that `restart_resets` gives. -/
theorem restartMakesAMasterReset : Obligations.RestartMakesAMasterReset := by
  intro m target tag s htakes hi hm hphase hown
  have hname : mayName m target = true := mayName_iff.mpr hm
  obtain ⟨x, ports, hrestart, ⟨no, out, hport⟩, hanswer, hother⟩ :=
    restart_resets (s := s.accept m tag 0x04) (m := m) (target := target) (r := s.nextReq m) hphase hown rfl (live_accept ..) hm
  generalize hf : (fun y : MasterRec => { y with fault := if m = target then y.fault else .restarted }) = f at hrestart
  let reset := (s.accept m tag 0x04).resetOf target x
  have hexec := (exec_restart m target tag s).trans
    (act_request (t := { reset.modSup target f with ports := ports }) htakes hi ((if_pos hname).trans hrestart) hi rfl rfl rfl rfl)
  obtain ⟨st, hstat⟩ := updateStat_stat { reset.modSup target f with ports := ports }
  rw [hstat] at hexec
  have hsup : (reset.modSup target f).sup target = f ((s.sup target).afterReset (s.clock / 1000) false) :=
    (State.sup_modSup ..).trans (congrArg f (State.sup_resetOf ..))
  have hsups : ∀ k, k ≠ target → (reset.modSup target f).sup k = s.sup k := fun k hk =>
    (State.sup_modSup_other _ _ _ _ hk).trans (State.sup_resetOf_other _ _ _ hk)
  subst hf
  refine ⟨_, hexec, ?_, hsup, congrArg Port.req hport, congrArg Port.answer hport, congrArg Port.mask hport,
    congrArg Port.flags hport, fun hne => ?_, State.stackOf_resetOf _ _ x, State.grant_resetOf _ _ x, State.measSet_resetOf _ _ x,
    fun k hk => ⟨hsups k hk, State.measSet_resetOf_other _ _ x hk, State.stackOf_resetOf_other _ _ x hk,
      State.grant_resetOf_other _ _ x hk⟩,
    fun k hk hkm => (hother k hk hkm).trans (State.port_modPort_other _ _ _ _ hkm),
    rfl, rfl, rfl, rfl, rfl, rfl, rfl, rfl, rfl, rfl, rfl⟩
  · exact decide_eq_true (congrArg MasterRec.phase hsup)
  · have htag : ((s.accept m tag 0x04).port m).tag = tag := by rw [port_accept]
    rw [← htag]
    exact hanswer hne

/-! ### The contact deadline (R102, R103) -/

theorem exec_contactExpiry (m : Master) (s : State) : exec (.contactExpiry m) s = act (fun s => s.contactReached m) s := rfl

theorem contactReached_due {s : State} {m : Master} {d : Nat} (h : (s.sup m).contact = some d) :
    s.contactReached m = (s.untilMs d).contactExpires m := by
  simp only [State.contactReached, h]

/-- The write of a boot-failure count (R102). -/
def bootFailWrite (m : Master) (n limit : Nat) : Write := ⟨.bootfail, m.idx, bootFailPayload n, true, .bootFail m n limit⟩

/-- A submitted write reaches the Record Store and the Crypto Engine alone. -/
theorem writing_store_engine (s : State) (w : Write) : ∃ e, s.writing w = { s with store := (s.writing w).store, engine := e } := by
  unfold State.writing
  split <;> exact ⟨_, rfl⟩

/-- What a submitted write leaves of the Record Store depends on the Record Store alone. -/
theorem store_writing_congr {s t : State} (h : t.store = s.store) (w : Write) : (t.writing w).store = (s.writing w).store := by
  cases hc : s.store.cur <;> simp only [State.writing, h, hc, State.modStore, State.begun]

/-- What a contact expiry of `m` leaves in `t` of a state `s`, whatever its fault reason and its write (R92, R102). -/
structure State.ResetKeeps (s t : State) (m : Master) : Prop where
  inbox : t.inbox = s.inbox
  pending : t.pending = s.pending
  flash : t.flash = s.flash
  fuses : t.fuses = s.fuses
  stat : t.stat = s.stat
  slots : t.image.slots = s.image.slots
  keys : t.keys.table = s.keys.table
  creds : t.creds.table = s.creds.table
  bank : t.bank = s.bank
  sup : ∀ k, k ≠ m → t.sup k = s.sup k
  measSet : ∀ k, k ≠ m → t.measSet k = s.measSet k

theorem resetOf_keeps (s : State) (m : Master) (x : ResetRest) : s.ResetKeeps (s.resetOf m x) m :=
  ⟨rfl, rfl, rfl, rfl, rfl, rfl, rfl, rfl, rfl, fun _ => s.sup_resetOf_other m x, fun _ => s.measSet_resetOf_other m x⟩

section
variable {s : State} {m : Master} (hphase : (s.sup m).phase ≠ .held) (hown : s.ownsNoSession m)
include hphase hown

/-- The contact deadline of a CURRENT boot: a master reset, and the write of the raised count (R102). -/
theorem contactExpires_current (hs : (s.sup m).servedState = some .current) (hn : (s.sup m).bootFailures < 15)
    (ht : s.storeTakes) :
    s.ResetKeeps (s.contactExpires m) m ∧ (s.contactExpires m).sup m = (s.sup m).afterReset s.ms false ∧
      (s.contactExpires m).store =
        (s.writing (bootFailWrite m ((s.sup m).bootFailures + 1) s.settings.bootFailureLimit)).store ∧
      ∀ k, k ≠ m → (s.contactExpires m).port k = s.port k := by
  obtain ⟨x, hreset⟩ := masterReset_resetOf hphase hown none
  generalize hw : bootFailWrite m ((s.sup m).bootFailures + 1) s.settings.bootFailureLimit = w
  have hexpires : s.contactExpires m = (s.resetOf m x).writing w := by
    rw [← submitWrite_taken (s.resetOf m x) w ht (by rw [← hw]; rfl), ← hw]
    simp only [State.contactExpires, hs, hn, if_true, hreset, Option.elim_none]
    rfl
  have hstore : ((s.resetOf m x).writing w).store = (s.writing w).store := store_writing_congr (s := s) (t := s.resetOf m x) rfl w
  obtain ⟨engine, hwriting⟩ := writing_store_engine (s.resetOf m x) w
  rw [hstore] at hwriting
  rw [hexpires, hwriting]
  obtain ⟨inbox, pending, flash, fuses, stat, slots, keys, creds, bank, sup, measSet⟩ := resetOf_keeps s m x
  exact ⟨⟨inbox, pending, flash, fuses, stat, slots, keys, creds, bank, sup, measSet⟩, s.sup_resetOf m x, rfl,
    fun k hk => s.port_resetOf_other m x hk⟩

/-- The contact deadline of another boot: a master reset with CONTACT_TIMEOUT (R102). -/
theorem contactExpires_other (hs : (s.sup m).servedState ≠ some .current) :
    s.ResetKeeps (s.contactExpires m) m ∧
      (s.contactExpires m).sup m = { (s.sup m).afterReset s.ms false with fault := .contactTimeout } ∧
      (s.contactExpires m).store = s.store ∧ ((s.contactExpires m).port m).flags = flagFault := by
  obtain ⟨x, hreset⟩ := masterReset_resetOf hphase hown (some .contactTimeout)
  have hexpires : s.contactExpires m = (s.resetOf m x).setFault m .contactTimeout := by
    unfold State.contactExpires
    split
    · rename_i h
      exact absurd h hs
    · exact hreset
  have hport := port_setFault_same (s.resetOf m x) (m := m) (f := .contactTimeout) (by decide)
  obtain ⟨ports, hfault⟩ := setFault_frame (s.resetOf m x) m .contactTimeout
  rw [s.port_resetOf, hfault] at hport
  rw [hexpires, hfault]
  obtain ⟨inbox, pending, flash, fuses, stat, slots, keys, creds, bank, sup, measSet⟩ := resetOf_keeps s m x
  have hsup := (s.resetOf m x).sup_modSup m fun y => { y with fault := .contactTimeout }
  rw [s.sup_resetOf] at hsup
  have hsups : ∀ k, k ≠ m → ((s.resetOf m x).modSup m fun y => { y with fault := .contactTimeout }).sup k = s.sup k :=
    fun k hk => (State.sup_modSup_other _ _ _ _ hk).trans (sup k hk)
  exact ⟨⟨inbox, pending, flash, fuses, stat, slots, keys, creds, bank, hsups, measSet⟩, hsup, rfl,
    (congrArg Port.flags hport).trans (show Port.reset.flags ||| flagFault = flagFault by decide)⟩

end

/-! ### The trial deadline (R105) -/

theorem exec_trialDeadline (m : Master) (s : State) : exec (.trialDeadline m) s = act (fun s => s.trialReached m) s := rfl

theorem trialReached_counts {s : State} {m : Master} {w : TrialWindow} (h : (s.sup m).trial = some w)
    (hlimit : w.errors + 1 < w.limit) :
    s.trialReached m = (s.untilMs w.deadline).modSup m fun x => { x with trial := some w.expired } := by
  simp only [State.trialReached, h]
  exact if_pos hlimit

/-- Settles O49: each master reset's fields, after the time up to the deadline has passed. -/
theorem contactAndTrialDeadlinesCountFailures : Obligations.ContactAndTrialDeadlinesCountFailures := by
  intro m s hi
  refine ⟨fun d hd hphase ht hown hserved hcount => ?_, fun d hd hphase hown hserved => ?_, fun w hw hlimit => ?_⟩
  · intro u
    have hdue : s.contactReached m = u.contactExpires m := contactReached_due hd
    obtain ⟨now, c, hu⟩ : ∃ now c, u = { s with clock := now, ctl := c } := untilMs_clock s d
    clear_value u
    subst hu
    obtain ⟨keeps, hsup, hstore, hport⟩ := contactExpires_current (s := { s with clock := now, ctl := c }) hphase hown hserved hcount ht
    generalize State.contactExpires _ m = t at hdue keeps hsup hstore hport
    obtain ⟨st, hstat⟩ := updateStat_stat t
    have hexec := (exec_contactExpiry m s).trans
      (act_calm hi hdue (keeps.inbox.trans hi) keeps.pending keeps.flash keeps.fuses keeps.stat)
    refine ⟨{ t with stat := st }, hstat ▸ hexec, congrArg MasterRec.phase hsup, congrArg MasterRec.hold hsup,
      congrArg MasterRec.holdDeadline hsup, congrArg MasterRec.contact hsup, (congrArg MasterRec.bootFailures hsup).trans rfl,
      (congrArg MasterRec.fault hsup).trans rfl,
      hstore.trans (store_writing_congr (s := s) (t := { s with clock := now, ctl := c }) rfl _),
      keeps.slots, keeps.keys, keeps.creds, keeps.bank,
      fun k hk => ⟨keeps.sup k hk, hport k hk, keeps.measSet k hk⟩⟩
  · intro u
    have hdue : s.contactReached m = u.contactExpires m := contactReached_due hd
    obtain ⟨now, c, hu⟩ : ∃ now c, u = { s with clock := now, ctl := c } := untilMs_clock s d
    clear_value u
    subst hu
    obtain ⟨keeps, hsup, hstore, hflags⟩ := contactExpires_other (s := { s with clock := now, ctl := c }) hphase hown hserved
    generalize State.contactExpires _ m = t at hdue keeps hsup hstore hflags
    obtain ⟨st, hstat⟩ := updateStat_stat t
    have hexec := (exec_contactExpiry m s).trans
      (act_calm hi hdue (keeps.inbox.trans hi) keeps.pending keeps.flash keeps.fuses keeps.stat)
    exact ⟨{ t with stat := st }, hstat ▸ hexec, congrArg MasterRec.phase hsup, congrArg MasterRec.hold hsup,
      congrArg MasterRec.holdDeadline hsup, congrArg MasterRec.contact hsup, (congrArg MasterRec.bootFailures hsup).trans rfl,
      congrArg MasterRec.fault hsup, hflags, hstore, keeps.slots, keeps.keys, keeps.creds, keeps.bank,
      fun k hk => ⟨keeps.sup k hk, keeps.measSet k hk⟩⟩
  · obtain ⟨now, c, hu⟩ := untilMs_clock s w.deadline
    have hcounts := trialReached_counts hw hlimit
    rw [hu] at hcounts ⊢
    exact (exec_trialDeadline m s).trans (act_calm hi hcounts hi rfl rfl rfl rfl)

end Sys2Proof.Machine
end

section
/-! What a boot choice finds (R94, R96, R98): O48. -/

namespace Sys2Proof.Machine

/-! ### The choice -/

theorem findSlot_none {s : State} {m : Master} {p : SlotEntry → Bool} (h : ∀ n, p (s.slot ⟨m, n⟩) = false) :
    s.findSlot m p = none := by
  simp only [State.findSlot, h, Bool.false_eq_true, if_false]

section
variable {s : State} {m : Master}

/-- With no slot on trial and none marked to be tried, step 1 of R94 finds none. -/
theorem chooseTrial_none
    (h : ∀ n, (s.slot ⟨m, n⟩).state ≠ .trial ∧ ((s.slot ⟨m, n⟩).state = .ready → (s.slot ⟨m, n⟩).tryMark = false)) :
    s.chooseTrial m = s.chooseCurrent m 2 := by
  have htried : ∀ n, (decide ((s.slot ⟨m, n⟩).state = .ready) && (s.slot ⟨m, n⟩).tryMark ||
      decide ((s.slot ⟨m, n⟩).state = .trial)) = false := fun n => by
    obtain ⟨htrial, hready⟩ := h n
    rw [decide_eq_false htrial, Bool.or_false, Bool.and_eq_false_imp]
    exact fun hstate => hready (of_decide_eq_true hstate)
  unfold State.chooseTrial
  rw [findSlot_none htried]

theorem chooseCurrent_none (h : s.currentSlot m = none) (n : Nat) :
    s.chooseCurrent m n = (if m = .app then .rescue else .recovery, s) := by
  cases n with
  | zero => rfl
  | succ n => simp only [State.chooseCurrent, h]

theorem chooseCurrent_eligible {i : SlotId} (h : s.currentSlot m = some i) (he : s.ineligible i = none) (n : Nat) :
    s.chooseCurrent m (n + 1) = (.slot i .current, s) := by
  simp only [State.chooseCurrent, h, he]

theorem tryChoice_follow {c : Choice} (hready : s.choiceReady m = true) (h : s.chooseTrial m = (c, s)) :
    s.tryChoice m = s.follow m c := by
  simp only [State.tryChoice, hready, if_true, h]

/-! ### What each choice does -/

theorem modSup_modSup (s : State) (m : Master) (f g : MasterRec → MasterRec) :
    (s.modSup m f).modSup m g = s.modSup m fun x => g (f x) := by
  simp only [State.modSup, Tri.get_set_same, Tri.set_set]

theorem modMeas_modMeas (s : State) (m : Master) (f g : MeasSet → MeasSet) :
    (s.modMeas m f).modMeas m g = s.modMeas m fun x => g (f x) := by
  simp only [State.modMeas, Tri.get_set_same, Tri.set_set]

theorem windowOpens_idle (h : (s.port m).boot = none) : s.windowOpens m = s := by
  simp only [State.windowOpens, h]

/-- A port whose boot transaction is ended, when it has none, stays. -/
theorem modPort_noBoot (h : (s.port m).boot = none) : (s.modPort m fun p => { p with boot := none }) = s := by
  have hport : { s.ports.get m with boot := none } = s.ports.get m := by rw [← show (s.ports.get m).boot = none from h]
  simp only [State.modPort, hport, Tri.set_get]

/-- What step 3 of R96 writes of the Master Record. -/
def State.released (s : State) (m : Master) (sv : Served) (st : ServedState) : State :=
  s.modSup m fun x =>
    { x with phase := .booting, hold := none, holdDeadline := none, window := some .open, served := sv, servedState := some st,
             contact := some (s.ms + s.settings.contact.get m), work := .none, skip := none }

/-- A release with no boot transaction open (R96, R100). -/
theorem release_idle (hboot : (s.port m).boot = none) (sv : Served) (st : ServedState) :
    s.release m sv st = (s.released m sv st).countRelease m :=
  windowOpens_idle hboot

/-- The release steps for the rescue image: its digest in cell 0, locked, and the release counted (R96, R151). -/
theorem follow_rescue (hboot : (s.port m).boot = none) :
    s.follow m .rescue = (s.released m .rescue .rescue).modMeas m
      fun x => { x with cells := x.cells.set 0 rescueDigest, locks := x.locks.set 0 true, releases := x.releases + 1 } :=
  (release_idle (s := s.setCell0 m rescueDigest) hboot .rescue .rescue).trans
    (modMeas_modMeas (s.released m .rescue .rescue) m
      (fun x => { x with cells := x.cells.set 0 rescueDigest, locks := x.locks.set 0 true })
      fun x => { x with releases := x.releases + 1 })

/-- Recovery of a master that is HELD and has no boot transaction or boot read (R98, R109). -/
theorem follow_recovery (hm : m ≠ .app) (hheld : (s.sup m).phase = .held) (hboot : (s.port m).boot = none)
    (hr : ∀ op ∈ s.ctl.reads, op.by_ ≠ .boot m) (hw : ∀ op, Waiting.read op ∈ s.ctl.wait → op.by_ ≠ .boot m) :
    s.follow m .recovery = ((s.modSup m fun x =>
      { x with hold := some .recovery, holdDeadline := none, window := none, served := .none, servedState := none,
               work := .none, skip := none, fault := .noImage }).raise m flagFault).raise .app flagPeer := by
  let held : MasterRec → MasterRec := fun x =>
    { x with phase := .held, hold := some .recovery, holdDeadline := none, window := none, served := .none, servedState := none,
             work := .none, skip := none, assertedAt := if x.phase = .held then x.assertedAt else s.ms }
  have hrecover : s.recover m = (s.modSup m held).setFault m .noImage := by
    have hdrop : (s.modSup m held).dropBootRead m = s.modSup m held := dropBootRead_none hr hw
    have hport : ((s.modSup m held).modPort m fun p => { p with boot := none }) = s.modSup m held := modPort_noBoot hboot
    exact congrArg (fun t : State => t.setFault m .noImage)
      ((congrArg (fun t : State => t.modPort m fun p => { p with boot := none }) hdrop).trans hport)
  refine hrecover.trans ((setFault_other (by decide) hm).trans ?_)
  refine congrArg (fun t : State => (t.raise m flagFault).raise .app flagPeer) ((modSup_modSup ..).trans (modSup_congr ?_))
  simp only [held, hheld, if_true]

/-- The digest of a checked CURRENT slot's manifest is submitted for cell 0 (R96). -/
theorem follow_current {i : SlotId} (hi : i.master = m) (hchecked : (s.slot i).checked = true) :
    s.follow m (.slot i .current) =
      ({ s with uid := s.uid + 1 }.modSup m fun x => { x with work := .cell0 s.uid i.slot .current }).given
        (.mk' .supervision (.digest none (s.slot i).mf true) .none (.cell0 m s.uid)) := by
  subst hi
  have hfollow : s.follow i.master (.slot i .current) = s.startCell0 i .current := by
    simp only [State.follow, hchecked, Bool.true_eq_false, if_false, reduceCtorEq]
  exact hfollow.trans (submitJob_keyless _ _ rfl rfl)

end

/-! ### The commands that make a boot choice -/

theorem exec_bootChoice (m : Master) (s : State) : exec (.bootChoice m) s = act (fun s => s.tryChoice m) s := rfl

theorem exec_holdDeadline (m : Master) (s : State) : exec (.holdDeadline m) s = act (fun s => s.holdPassed m) s := rfl

theorem holdPassed_due {s : State} {m : Master} {d : Nat} (h : (s.sup m).holdDeadline = some d) :
    s.holdPassed m = (s.untilMs d).tryChoice m := by
  simp only [State.holdPassed, h]

/-- BOOT_CHOICE, and HOLD_DEADLINE at its deadline, end in what the choice made in `u` leaves (R93, R94). -/
theorem exec_choice {m : Master} {c : Instr} {s u t : State} (hi : s.inbox = [])
    (hc : c = .bootChoice m ∧ u = s ∨ ∃ d, (s.sup m).holdDeadline = some d ∧ c = .holdDeadline m ∧ u = s.untilMs d)
    (ht : u.tryChoice m = t)
    (hkeeps : t.inbox = u.inbox ∧ t.pending = u.pending ∧ t.flash = u.flash ∧ t.fuses = u.fuses ∧ t.stat = u.stat) :
    exec c s = .next t.updateStat := by
  obtain ⟨hinbox, hpending, hflash, hfuses, hstat⟩ := hkeeps
  rcases hc with ⟨rfl, rfl⟩ | ⟨d, hd, rfl, rfl⟩
  · exact (exec_bootChoice m u).trans (act_calm hi ht (hinbox.trans hi) hpending hflash hfuses hstat)
  · have hpassed : s.holdPassed m = t := (holdPassed_due hd).trans ht
    obtain ⟨now, ctl, hclock⟩ := untilMs_clock s d
    rw [hclock] at hinbox hpending hflash hfuses hstat
    exact (exec_holdDeadline m s).trans (act_calm hi hpassed (hinbox.trans hi) hpending hflash hfuses hstat)

/-- Settles O48: the choice that is found, then what it does, for both commands. -/
theorem bootChoiceServesWhatItFinds : Obligations.BootChoiceServesWhatItFinds := by
  intro m c s u hi hc hready hheld hboot hr hw hslots
  have htrial := chooseTrial_none hslots
  refine ⟨fun happ hnone => ?_, fun hm hnone => ?_, fun i hcurrent heligible hchecked => ?_⟩
  · subst happ
    have hchoice : u.tryChoice .app = u.follow .app .rescue :=
      tryChoice_follow hready (htrial.trans (chooseCurrent_none hnone 2))
    exact exec_choice hi hc (hchoice.trans (follow_rescue hboot)) ⟨rfl, rfl, rfl, rfl, rfl⟩
  · have hchoice : u.tryChoice m = u.follow m .recovery :=
      tryChoice_follow hready (htrial.trans ((chooseCurrent_none hnone 2).trans (by rw [if_neg hm])))
    exact exec_choice hi hc (hchoice.trans (follow_recovery hm hheld hboot hr hw)) ⟨rfl, rfl, rfl, rfl, rfl⟩
  · have hchoice : u.tryChoice m = u.follow m (.slot i .current) :=
      tryChoice_follow hready (htrial.trans (chooseCurrent_eligible hcurrent heligible 1))
    exact exec_choice hi hc (hchoice.trans (follow_current (findSlot_master hcurrent) hchecked)) ⟨rfl, rfl, rfl, rfl, rfl⟩

end Sys2Proof.Machine
end

section
/-! What the requests for keys share: how a key is named and who may see it, a request answered without telling another
block, and what a new key's entry and a destroyed entry leave in the Key Manager. -/

namespace Sys2Proof.Machine

/-! ### Answers (R183) -/

/-- A request that is answered, and no other block told. -/
theorem exec_answered {c : Instr} {s : State} {m : Master} {n : RequestName} {payload : Bytes} {tag : Byte}
    {own : State → Req → State} (hexec : exec c s = reply (fun s => s.request m n tag payload own) s)
    (h : s.takes m n payload) {st : Status} {answer : Bytes}
    (ho : own (s.accept m tag n.code) (s.nextReq m) = (s.accept m tag n.code).answer (s.nextReq m) st answer) :
    exec c s = .next (s.told m tag n.code st answer) :=
  hexec.trans (reply_request h (ho.trans (answer_accept ..)) rfl rfl rfl rfl rfl)

/-- The answer of a request that waited for work, after a change of the Key Manager. -/
theorem answer_working (s : State) (m : Master) (tag code : Byte) (w : Work) (f : KeyMgr → KeyMgr) (st : Status)
    (payload : Bytes) :
    ((s.working m tag code w).modKeys f).answer (s.nextReq m) st payload = (s.told m tag code st payload).modKeys f := by
  have hlive : ((s.working m tag code w).modKeys f).live (s.nextReq m) = true := by
    simp only [State.live, State.nextReq, State.working, State.port_modKeys, State.port_modPort, decide_true, Bool.and_self]
  rw [answer_live hlive]
  simp only [State.modPort, State.modKeys, State.nextReq, State.working, State.told, Tri.get_set_same, Tri.set_set]

/-! ### Naming a key (R129, R190) -/

section
variable {s : State} {r : Req} {m : Master} {h : Nat} {g : Byte} {e : KeyEntry}

/-- A handle in range that names no key found. -/
theorem withHandle_notFound (h1 : 1 ≤ h) (hh : h ≤ 48) (hf : s.keyFound h g = none) (f : KeyEntry → State) :
    s.withHandle r (BitVec.ofNat 8 h) (fun h => s.withKey r h g f) = s.refuse r .notFound := by
  rw [withHandle_inRange h1 hh]
  simp only [State.withKey, hf]

/-- A handle in range that names a key found. -/
theorem withHandle_found (h1 : 1 ≤ h) (hh : h ≤ 48) (hf : s.keyFound h g = some e) (f : KeyEntry → State) :
    s.withHandle r (BitVec.ofNat 8 h) (fun h => s.withKey r h g f) = f e := by
  rw [withHandle_inRange h1 hh]
  simp only [State.withKey, hf]

theorem keyBarred_factoryOnly {cls : KeyClass} :
    s.keyBarred m factoryOnly cls = true ↔ m = .app ∧ s.onRescue = true ∧ cls ≠ .factory := by
  simp [State.keyBarred, factoryOnly, and_assoc]

/-- Off the rescue image no class is barred. -/
theorem keyBarred_offRescue (ho : m = .app → s.onRescue = false) (allowed : KeyClass → Bool) (cls : KeyClass) :
    s.keyBarred m allowed cls = false := by
  by_cases happ : m = .app
  · simp [State.keyBarred, ho happ]
  · simp [State.keyBarred, happ]

theorem mayMake_iff {users : Byte} : mayMake m users = true ↔ m = .app ∨ hasBit users m.idx = true := by
  simp [mayMake]

end

/-! ### Entries that are made (R130, R136) -/

section
variable {s : State} {r : Req} {cls : KeyClass} {label : Bytes} {h : Nat}

theorem withRoom_inUse (hl : s.labelInUse label = true) (f : Nat → State) :
    s.withRoom r cls label f = s.refuse r .existsAlready := if_pos hl

theorem withRoom_full (hl : s.labelInUse label = false) (hr : s.roomForKey cls = none) (f : Nat → State) :
    s.withRoom r cls label f = s.refuse r .full := by
  simp only [State.withRoom, hl, hr, Bool.false_eq_true, if_false]

theorem withRoom_free (hl : s.labelInUse label = false) (hr : s.roomForKey cls = some h) (f : Nat → State) :
    s.withRoom r cls label f = f h := by
  simp only [State.withRoom, hl, hr, Bool.false_eq_true, if_false]

/-- The handle there is room on is the lowest free one. -/
theorem freeHandle_of_room (hr : s.roomForKey cls = some h) : s.freeHandle = some h := by
  unfold State.roomForKey at hr
  split at hr
  · cases hr
  · exact hr

theorem freeHandle_unheld (hfree : s.freeHandle = some h) : ∀ x ∈ s.keys.holds, x.handle ≠ h := by
  have hnone := List.find?_some hfree
  simp only [Bool.and_eq_true, Bool.not_eq_true', List.any_eq_false, decide_eq_true_eq] at hnone
  exact hnone.2

/-- The hold of a free handle, when it ends, leaves the holds there were. -/
theorem unholdKey_holdKey {k : NewKey} (hfree : s.freeHandle = some k.handle) :
    (s.holdKey r k).unholdKey k.handle = s := by
  have hothers : s.keys.holds.filter (fun x => !decide (x.handle = k.handle)) = s.keys.holds :=
    List.filter_eq_self.mpr fun x hx => by simp [freeHandle_unheld hfree x hx]
  simp [State.holdKey, State.unholdKey, State.modKeys, hothers]

/-- `s` with one more key in the table. -/
def State.withEntry (s : State) (e : KeyEntry) : State := { s with keys := { s.keys with table := s.keys.table ++ [e] } }

/-- A VOLATILE key held on a free handle is PRESENT at once, and its request answered (R136). -/
theorem completeKey_volatile {k : NewKey} (hc : k.cls = .volatile) (hfree : s.freeHandle = some k.handle)
    (material pub : Bytes) (depth : Option Nat) :
    (s.holdKey r k).completeKey r k material pub depth =
      (s.withEntry (s.entryOf k material pub)).answer r .ok ([BitVec.ofNat 8 k.handle, s.genOf k.handle] ++ pub ++
        match depth with
        | none => []
        | some d => [BitVec.ofNat 8 d]) := by
  have hinstall : (s.holdKey r k).completeKey r k material pub depth =
      (s.holdKey r k).installKey r (s.entryOf k material pub) depth := if_pos hc
  exact hinstall.trans (congrArg (fun t : State => (t.withEntry (s.entryOf k material pub)).answer r .ok _)
    (unholdKey_holdKey hfree))

end

/-! ### Entries that are freed (R129, R138, R145) -/

/-- The Key Manager after an entry left the table: its handle's generation has risen, the stacks rooted on it are empty. -/
def KeyMgr.without (k : KeyMgr) (h : Nat) (g : Byte) : KeyMgr :=
  let clear := fun (st : List StackEntry) =>
    if st.any fun x => decide (x.rootHandle = h) && decide (x.rootGen = g) then [] else st
  { k with
    table := k.table.filter fun x => !(decide (x.handle = h) && decide (x.gen = g))
    gens := k.gens.set (h - 1) (g + 1)
    stackOf := ⟨clear k.stackOf.app, clear k.stackOf.radio, clear k.stackOf.line⟩ }

/-- What a freed entry makes of a destroy that waits for it, or for another. -/
def Destroy.markFreed (h : Nat) (g : Byte) (d : Destroy) : Destroy :=
  if d.handle = h ∧ d.gen = g then { d with freed := true } else d

/-- A destroyed entry that no job uses is freed at once; what waited for this alone is answered. -/
theorem destroyKey_unused (s : State) (h : Nat) (g : Byte) :
    s.destroyKey h g false = (s.modKeys fun k =>
      { k.without h g with destroys := k.destroys.map (Destroy.markFreed h g) }).finishDestroys := rfl

/-- A destroy whose entry is freed and that waits for no removal is answered. -/
theorem finishDestroys_answers {s : State} {d : Destroy} (hd : s.keys.destroys = [d]) (hf : d.freed = true)
    (hw : d.writing = false) (hs : d.status = .ok) :
    s.finishDestroys = (s.modKeys fun k => { k with destroys := [] }).answer d.req .ok [] := by
  simp [State.finishDestroys, State.modKeys, hd, hf, hw, hs]

/-- A destroy whose removal has not ended waits on. -/
theorem finishDestroys_waits {s : State} {d : Destroy} (hd : s.keys.destroys = [d]) (hw : d.writing = true) :
    s.finishDestroys = s := by
  have hkept : (s.keys.destroys.filter fun d => !(d.freed && !d.writing)) = s.keys.destroys := by simp [hd, hw]
  have hended : (s.keys.destroys.filter fun d => d.freed && !d.writing) = [] := by simp [hd, hw]
  simp only [State.finishDestroys, State.modKeys, hkept, hended, List.foldl_nil]

end Sys2Proof.Machine
end

section
/-! KEY-CREATE: O31. -/

namespace Sys2Proof.Machine

/-! ### KEY-CREATE (R135, R136) -/

theorem exec_keyCreate {cls : KeyClass} {payload : Bytes} (hc : KeyClass.ofCode (byteAt 0 payload) = some cls) (m : Master)
    (tag : Byte) (s : State) :
    exec (.keyCreate m tag payload) s =
      act (fun s => s.request m .keyCreate tag payload fun s r => s.keyCreate m r cls payload) s := by
  change execKeyCreate m tag payload s = _
  simp only [execKeyCreate, hc]

/-- The key that a KEY-CREATE payload asks for, but for its handle and class (11.8). -/
structure NewKey.CreatedBy (k : NewKey) (p : Bytes) : Prop where
  kind : KeyKind.ofCode (byteAt 1 p) = some k.kind
  usages : k.usages = byteAt 2 p
  users : k.users = byteAt 3 p
  binding : Binding.ofCode (byteAt 4 p) (byteAt 5 p) (slice 6 32 p) = some k.binding
  limit : k.limit = if leNat (slice 38 2 p) = 0 then none else some (leNat (slice 38 2 p))
  label : k.label = p.drop 40

section
variable {s : State} {m : Master} {r : Req} {k : NewKey} {p : Bytes}

/-- KEY-CREATE's tests of permission and form pass: the key is made where there is room (R135). -/
theorem keyCreate_passes (hk : k.CreatedBy p) (hlimited : k.limit = none ∨ k.cls = .volatile)
    (hbar : s.keyBarred m factoryOnly k.cls = false) (hclass : s.classAllowed k.cls = true) (hm : mayMake m k.users = true)
    (hform : keyForm k.kind k.usages k.users k.binding k.label = true) :
    s.keyCreate m r k.cls p = s.withRoom r k.cls k.label fun h => s.makeKey m r { k with handle := h } := by
  obtain ⟨handle, cls, kind, usages, users, binding, label, limit⟩ := k
  obtain ⟨hkind, rfl, rfl, hbinding, rfl, rfl⟩ := hk
  have hsuits : (decide (leNat (slice 38 2 p) ≠ 0) && !decide (cls = .volatile)) = false := by
    by_cases hzero : leNat (slice 38 2 p) = 0
    · rw [decide_eq_false (not_not_intro hzero), Bool.false_and]
    · have hvolatile : cls = .volatile := hlimited.resolve_left fun hnone => nomatch (if_neg hzero).symm.trans hnone
      rw [decide_eq_true hvolatile, Bool.not_true, Bool.and_false]
  simp only [State.keyCreate, hbar, hclass, hm, hkind, hbinding, hform, hsuits]
  rfl

/-- A new SECRET key's material is drawn at once (R135). -/
theorem makeKey_secret (hk : k.kind = .secret) :
    s.makeKey m r k = ((s.drawn 32).holdKey r k).completeKey r k (s.random 32) [] none := by
  simp only [State.makeKey, hk]
  rfl

/-- A new key pair comes from a KEYGEN job (R135). -/
theorem makeKey_pair (hk : k.kind ≠ .secret) :
    s.makeKey m r k = ((s.holdKey r k).setWork r (.keyCreate k)).submitJob (portJob m r .keygen .none) := by
  cases hkind : k.kind with
  | secret => exact absurd hkind hk
  | sign => simp only [State.makeKey, hkind]
  | agree => simp only [State.makeKey, hkind]

/-- The completion of a key that is not VOLATILE writes its record first (R136). -/
theorem completeKey_recorded (hc : k.cls ≠ .volatile) (material pub : Bytes) (depth : Option Nat) :
    s.completeKey r k material pub depth = (s.setWork r .other).submitWrite
      ⟨.key, k.handle, (s.entryOf k material pub).payload, false, .keyNew r (s.entryOf k material pub) depth⟩ := if_neg hc

end

/-- Settles O31: the tests pass, then room is found or not, and the key found room for is made as its kind and class say. -/
theorem keyCreateMakesTheKey : Obligations.KeyCreateMakesTheKey := by
  intro m tag k payload s htakes hi hcls hkind husages husers hbinding hlimit hlimited hlabel hbar hclass hm hform c drawn e held
  have hk : k.CreatedBy payload := ⟨hkind, husages, husers, hbinding, hlimit, hlabel⟩
  have hexec := exec_keyCreate hcls m tag s
  have hpasses := keyCreate_passes (s := s.accept m tag 0x20) (r := s.nextReq m) hk hlimited hbar hclass hm hform
  refine ⟨fun hl => ?_, fun hl hr => ?_, fun hl hr => ?_⟩
  · exact exec_refusal hexec htakes hi (hpasses.trans (withRoom_inUse (s := s.accept m tag 0x20) hl _))
  · exact exec_refusal hexec htakes hi (hpasses.trans (withRoom_full (s := s.accept m tag 0x20) hl hr _))
  have hmade := hpasses.trans (withRoom_free (s := s.accept m tag 0x20) hl hr _)
  refine ⟨fun hsecret hvolatile => ?_, fun hsecret hkept hstore => ?_, fun hpair => ?_⟩
  · have hpresent := completeKey_volatile (s := (s.accept m tag 0x20).drawn 32) (r := s.nextReq m) hvolatile
      (freeHandle_of_room hr) drawn [] none
    exact hexec.trans (act_request htakes hi
      (hmade.trans ((makeKey_secret hsecret).trans (hpresent.trans (answer_later .ok _)))) hi rfl rfl rfl rfl)
  · have hrecord := completeKey_recorded (s := ((s.accept m tag 0x20).drawn 32).holdKey (s.nextReq m) k) (r := s.nextReq m)
      hkept drawn [] none
    rw [setWork_later] at hrecord
    exact hexec.trans (act_writing htakes hi (hmade.trans ((makeKey_secret hsecret).trans (hrecord.trans
      (submitWrite_taken _ _ hstore rfl)))) hi rfl rfl rfl rfl)
  · have hjob := makeKey_pair (s := s.accept m tag 0x20) (m := m) (r := s.nextReq m) hpair
    rw [setWork_later, submitJob_keyless _ _ rfl rfl] at hjob
    exact hexec.trans (act_request htakes hi (hmade.trans hjob) hi rfl rfl rfl rfl)

end Sys2Proof.Machine
end

section
/-! KEY-DESTROY: O32. -/

namespace Sys2Proof.Machine

/-! ### KEY-DESTROY (R137, R138) -/

/-- KEY-DESTROY of a key that was found. -/
def State.keyDestroy (s : State) (m : Master) (r : Req) (e : KeyEntry) : State :=
  if s.keyBarred m factoryOnly e.cls || !mayMake m e.users || !s.mayDestroy m e.cls then s.refuse r .notPermitted
  else s.takeDestroy r e

theorem exec_keyDestroy (m : Master) (tag : Byte) (payload : Bytes) (s : State) :
    exec (.keyDestroy m tag payload) s = act (fun s => s.request m .keyDestroy tag payload fun s r =>
      s.withHandle r (byteAt 0 payload) fun h => s.withKey r h (byteAt 1 payload) fun e => s.keyDestroy m r e) s := rfl

section
variable {s : State} {m : Master} {r : Req} {e : KeyEntry} {tag code : Byte}

theorem keyDestroy_notPermitted (hd : s.mayDestroy m e.cls = false) : s.keyDestroy m r e = s.refuse r .notPermitted :=
  if_pos (by simp [hd])

theorem keyDestroy_permitted (hm : mayMake m e.users = true) (hb : s.keyBarred m factoryOnly e.cls = false)
    (hd : s.mayDestroy m e.cls = true) : s.keyDestroy m r e = s.takeDestroy r e :=
  if_neg (by simp [hm, hb, hd])

/-- A destroyable key that is not VOLATILE has a record to remove (R134, R137). -/
theorem hasRecord_of_mayDestroy (hd : s.mayDestroy m e.cls = true) (hc : e.cls ≠ .volatile) :
    (decide (e.cls = .factory) || decide (e.cls = .owner)) = true := by
  cases hcls : e.cls with
  | device => rw [hcls] at hd; exact absurd hd (by simp [State.mayDestroy])
  | factory => rfl
  | owner => rfl
  | volatile => exact absurd hcls hc

/-- The Key Manager's note of a destroy just taken, whose entry was freed at once. -/
def Destroy.noted (r : Req) (e : KeyEntry) (writing : Bool) : Destroy := ⟨r, e.handle, e.gen, true, writing, .ok⟩

/-- The destroy of a key that no job uses, when no other waits. -/
theorem takeDestroy_unused (hu : s.keyInUse e.handle e.gen = false) (hd : s.keys.destroys = []) :
    let kept := decide (e.cls = .factory) || decide (e.cls = .owner)
    let t := ((s.working m tag code .other).modKeys fun k =>
      { k.without e.handle e.gen with destroys := [Destroy.noted (s.nextReq m) e kept] }).finishDestroys
    (s.accept m tag code).takeDestroy (s.nextReq m) e =
      if kept then t.submitRemoval .key e.handle (.keyRemoval e.handle e.gen) else t := by
  intro kept t
  have hnoted : (s.keys.destroys ++ [{ Destroy.noted (s.nextReq m) e kept with freed := false }]).map
      (Destroy.markFreed e.handle e.gen) = [Destroy.noted (s.nextReq m) e kept] := by
    simp [hd, Destroy.noted, Destroy.markFreed]
  have hfreed : ((s.working m tag code .other).modKeys fun k => { k with
        destroys := k.destroys ++ [⟨s.nextReq m, e.handle, e.gen, false, kept, .ok⟩] }).destroyKey e.handle e.gen
          (s.keyInUse e.handle e.gen) = t := by
    rw [hu, destroyKey_unused]
    exact congrArg (fun ds => ((s.working m tag code .other).modKeys fun k =>
      { k.without e.handle e.gen with destroys := ds }).finishDestroys) hnoted
  rw [State.takeDestroy, setWork_accept]
  exact congrArg (fun t : State => if kept then t.submitRemoval .key e.handle (.keyRemoval e.handle e.gen) else t) hfreed

/-- The destroy of a VOLATILE key is answered at once. -/
theorem takeDestroy_volatile (hu : s.keyInUse e.handle e.gen = false) (hd : s.keys.destroys = []) (hc : e.cls = .volatile) :
    (s.accept m tag code).takeDestroy (s.nextReq m) e =
      (s.told m tag code .ok []).modKeys fun k => k.without e.handle e.gen := by
  have hnone : { s.keys.without e.handle e.gen with destroys := [] } = s.keys.without e.handle e.gen := by rw [← hd]; rfl
  rw [takeDestroy_unused hu hd, hc]
  calc _ = ((s.working m tag code .other).modKeys fun k => { k.without e.handle e.gen with destroys := [] }).answer
          (s.nextReq m) .ok [] := finishDestroys_answers (d := Destroy.noted (s.nextReq m) e false) rfl rfl rfl rfl
    _ = (s.told m tag code .ok []).modKeys fun k => { k.without e.handle e.gen with destroys := [] } :=
      answer_working ..
    _ = _ := congrArg (fun k => (s.told m tag code .ok []).modKeys fun _ => k) hnone

/-- The destroy of another key waits for the removal of its record. -/
theorem takeDestroy_recorded (hu : s.keyInUse e.handle e.gen = false) (hd : s.keys.destroys = [])
    (hk : (decide (e.cls = .factory) || decide (e.cls = .owner)) = true) :
    (s.accept m tag code).takeDestroy (s.nextReq m) e = ((s.working m tag code .other).modKeys fun k =>
      { k.without e.handle e.gen with destroys := [Destroy.noted (s.nextReq m) e true] }).submitWrite
        ⟨.key, e.handle, [], true, .keyRemoval e.handle e.gen⟩ := by
  rw [takeDestroy_unused hu hd, hk]
  exact congrArg (fun t : State => t.submitRemoval .key e.handle _) (finishDestroys_waits rfl rfl)

end

/-- Settles O32: the key is found, then refused, or freed at once with its request answered or its removal submitted. -/
theorem keyDestroyFreesTheEntry : Obligations.KeyDestroyFreesTheEntry := by
  intro m tag e s payload c htakes hi h1 hh hf hm hb
  have hexec := exec_keyDestroy m tag payload s
  have hfound := withHandle_found (s := s.accept m tag 0x21) (r := s.nextReq m) h1 hh hf fun e =>
    (s.accept m tag 0x21).keyDestroy m (s.nextReq m) e
  refine ⟨fun hd => ?_, fun hd hu hnone => ⟨fun hc => ?_, fun hc hstore => ?_⟩⟩
  · exact exec_refusal hexec htakes hi (hfound.trans (keyDestroy_notPermitted (s := s.accept m tag 0x21) hd))
  · have hdestroy := hfound.trans (keyDestroy_permitted (s := s.accept m tag 0x21) hm hb hd)
    exact hexec.trans (act_request htakes hi (hdestroy.trans (takeDestroy_volatile hu hnone hc)) hi rfl rfl rfl rfl)
  · have hdestroy := hfound.trans (keyDestroy_permitted (s := s.accept m tag 0x21) hm hb hd)
    exact hexec.trans (act_writing htakes hi (hdestroy.trans ((takeDestroy_recorded hu hnone (hasRecord_of_mayDestroy hd hc)).trans
      (submitWrite_taken _ _ hstore rfl))) hi rfl rfl rfl rfl)

end Sys2Proof.Machine
end

section
/-! The requests that describe a key: O33 and O34. -/

namespace Sys2Proof.Machine

/-! ### KEY-INFO and KEY-FIND (R140, R190) -/

/-- What is told of a key that KEY-INFO or KEY-FIND names. -/
def State.describe (s : State) (m : Master) (r : Req) (e : KeyEntry) (answer : Bytes) : State :=
  if s.keyBarred m factoryOnly e.cls then s.refuse r .notPermitted
  else if mayMake m e.users then s.answer r .ok answer
  else s.refuse r .notFound

theorem exec_keyInfo (m : Master) (tag : Byte) (payload : Bytes) (s : State) :
    exec (.keyInfo m tag payload) s = reply (fun s => s.request m .keyInfo tag payload fun s r =>
      s.withHandle r (byteAt 0 payload) fun h => s.withKey r h (byteAt 1 payload) fun e => s.describe m r e e.info) s := rfl

/-- KEY-FIND taken. -/
def State.keyFind (s : State) (m : Master) (r : Req) (label : Bytes) : State :=
  match s.keyLabelled label with
  | none => s.refuse r .notFound
  | some e => s.describe m r e [BitVec.ofNat 8 e.handle, e.gen, e.cls.code, e.kind.code]

theorem exec_keyFind (m : Master) (tag : Byte) (label : Bytes) (s : State) :
    exec (.keyFind m tag label) s =
      reply (fun s => s.request m .keyFind tag label fun s r => s.keyFind m r label) s := rfl

section
variable {s : State} {m : Master} {r : Req} {e : KeyEntry} {answer label : Bytes}

theorem describe_barred (hb : m = .app ∧ s.onRescue = true ∧ e.cls ≠ .factory) :
    s.describe m r e answer = s.refuse r .notPermitted := if_pos (keyBarred_factoryOnly.mpr hb)

theorem describe_reached (hb : ¬ (m = .app ∧ s.onRescue = true ∧ e.cls ≠ .factory))
    (hm : m = .app ∨ hasBit e.users m.idx = true) :
    s.describe m r e answer = s.answer r .ok answer := by
  rw [State.describe, if_neg (fun h => hb (keyBarred_factoryOnly.mp h)), if_pos (mayMake_iff.mpr hm)]

theorem describe_unreached (hb : ¬ (m = .app ∧ s.onRescue = true ∧ e.cls ≠ .factory))
    (hm : ¬ (m = .app ∨ hasBit e.users m.idx = true)) : s.describe m r e answer = s.refuse r .notFound := by
  rw [State.describe, if_neg (fun h => hb (keyBarred_factoryOnly.mp h)), if_neg (fun h => hm (mayMake_iff.mp h))]

theorem keyFind_unlabelled (hf : s.keyLabelled label = none) : s.keyFind m r label = s.refuse r .notFound := by
  simp only [State.keyFind, hf]

theorem keyFind_labelled (hf : s.keyLabelled label = some e) :
    s.keyFind m r label = s.describe m r e [BitVec.ofNat 8 e.handle, e.gen, e.cls.code, e.kind.code] := by
  simp only [State.keyFind, hf]

/-- A request that ends in the description of a key. -/
theorem exec_describe {c : Instr} {n : RequestName} {payload : Bytes} {tag : Byte} {own : State → Req → State}
    (hexec : exec c s = reply (fun s => s.request m n tag payload own) s) (h : s.takes m n payload)
    (ho : own (s.accept m tag n.code) (s.nextReq m) = (s.accept m tag n.code).describe m (s.nextReq m) e answer) :
    exec c s = .next (
      if m = .app ∧ s.onRescue = true ∧ e.cls ≠ .factory then s.told m tag n.code .notPermitted [0]
      else if m = .app ∨ hasBit e.users m.idx = true then s.told m tag n.code .ok answer
      else s.told m tag n.code .notFound [0]) := by
  by_cases hb : m = .app ∧ s.onRescue = true ∧ e.cls ≠ .factory
  · rw [if_pos hb]
    exact exec_answered hexec h (ho.trans (describe_barred (s := s.accept m tag n.code) hb))
  · rw [if_neg hb]
    by_cases hm : m = .app ∨ hasBit e.users m.idx = true
    · rw [if_pos hm]
      exact exec_answered hexec h (ho.trans (describe_reached (s := s.accept m tag n.code) hb hm))
    · rw [if_neg hm]
      exact exec_answered hexec h (ho.trans (describe_unreached (s := s.accept m tag n.code) hb hm))

end

/-- Settles O33: each request finds its key or none, and describes the key it finds. -/
theorem keyInfoAndFindDescribeReachableKeys : Obligations.KeyInfoAndFindDescribeReachableKeys := by
  intro m tag s
  refine ⟨fun h g h1 hh htakes => ?_, fun label htakes => ?_⟩
  · have hexec := exec_keyInfo m tag [BitVec.ofNat 8 h, g] s
    cases hf : s.keyFound h g with
    | none => exact exec_answered hexec htakes (withHandle_notFound (s := s.accept m tag 0x22) h1 hh hf _)
    | some e => exact exec_describe hexec htakes (withHandle_found (s := s.accept m tag 0x22) h1 hh hf _)
  · have hexec := exec_keyFind m tag label s
    cases hf : s.keys.table.find? fun e => decide (e.label = label) && !e.destroying with
    | none => exact exec_answered hexec htakes (keyFind_unlabelled (s := s.accept m tag 0x23) hf)
    | some e => exact exec_describe hexec htakes (keyFind_labelled (s := s.accept m tag 0x23) hf)

/-! ### KEY-PUBLIC (R141, R190) -/

/-- What is told of a key that KEY-PUBLIC names. -/
def State.publicHalf (s : State) (m : Master) (r : Req) (e : KeyEntry) : State :=
  if s.keyBarred m s.publicOnRescue e.cls then s.refuse r .notPermitted
  else if e.kind = .secret then s.refuse r .badRequest
  else if e.cls = .device ∨ e.allows m .exportPublic = true then s.answer r .ok e.pub
  else s.refuse r .notPermitted

theorem exec_keyPublic (m : Master) (tag : Byte) (payload : Bytes) (s : State) :
    exec (.keyPublic m tag payload) s = reply (fun s => s.request m .keyPublic tag payload fun s r =>
      s.withHandle r (byteAt 0 payload) fun h => s.withKey r h (byteAt 1 payload) fun e => s.publicHalf m r e) s := rfl

section
variable {s : State} {m : Master} {r : Req} {e : KeyEntry} (ho : m = .app → s.onRescue = false)
include ho

theorem publicHalf_tests : s.publicHalf m r e =
    if e.kind = .secret then s.refuse r .badRequest
    else if e.cls = .device ∨ e.allows m .exportPublic = true then s.answer r .ok e.pub
    else s.refuse r .notPermitted := by
  rw [State.publicHalf, keyBarred_offRescue ho, if_neg Bool.false_ne_true]

theorem publicHalf_secret (hk : e.kind = .secret) : s.publicHalf m r e = s.refuse r .badRequest := by
  rw [publicHalf_tests ho, if_pos hk]

theorem publicHalf_exported (hk : e.kind ≠ .secret) (he : e.cls = .device ∨ e.allows m .exportPublic = true) :
    s.publicHalf m r e = s.answer r .ok e.pub := by
  rw [publicHalf_tests ho, if_neg hk, if_pos he]

theorem publicHalf_kept (hk : e.kind ≠ .secret) (he : ¬ (e.cls = .device ∨ e.allows m .exportPublic = true)) :
    s.publicHalf m r e = s.refuse r .notPermitted := by
  rw [publicHalf_tests ho, if_neg hk, if_neg he]

end

theorem allows_exportPublic {e : KeyEntry} {m : Master} :
    e.allows m .exportPublic = true ↔ hasBit e.users m.idx = true ∧ hasBit e.usages 5 = true :=
  Bool.and_eq_true_iff

/-- Settles O34: the key is found or not, then the tests of R141 in order. -/
theorem keyPublicReturnsThePublicHalf : Obligations.KeyPublicReturnsThePublicHalf := by
  intro m tag h g s h1 hh htakes ho
  have hexec := exec_keyPublic m tag [BitVec.ofNat 8 h, g] s
  cases hf : s.keyFound h g with
  | none => exact exec_answered hexec htakes (withHandle_notFound (s := s.accept m tag 0x24) h1 hh hf _)
  | some e =>
    have hfound := withHandle_found (s := s.accept m tag 0x24) (r := s.nextReq m) h1 hh hf fun e =>
      (s.accept m tag 0x24).publicHalf m (s.nextReq m) e
    have hoff : m = .app → (s.accept m tag 0x24).onRescue = false := ho
    by_cases hk : e.kind = .secret
    · exact (exec_answered hexec htakes (hfound.trans (publicHalf_secret hoff hk))).trans (congrArg _ (if_pos hk).symm)
    · refine Eq.trans ?_ (congrArg _ (if_neg hk).symm)
      by_cases he : e.cls = .device ∨ e.allows m .exportPublic = true
      · refine (exec_answered hexec htakes (hfound.trans (publicHalf_exported hoff hk he))).trans (congrArg _ (if_pos ?_).symm)
        exact he.imp_right allows_exportPublic.mp
      · refine (exec_answered hexec htakes (hfound.trans (publicHalf_kept hoff hk he))).trans (congrArg _ (if_neg ?_).symm)
        exact fun h => he (h.imp_right allows_exportPublic.mpr)

end Sys2Proof.Machine
end

section
/-! The top of a derivation stack: O36 and O37. -/

namespace Sys2Proof.Machine

/-! ### DERIVE-POP (R147) -/

/-- DERIVE-POP taken. -/
def State.derivePop (s : State) (m : Master) (r : Req) : State :=
  match (s.keys.stackOf.get m).getLast? with
  | none => s.refuse r .state
  | some top =>
    (s.modKeys fun k => { k with stackOf := k.stackOf.set m (s.keys.stackOf.get m).dropLast }).answer r .ok
      (BitVec.ofNat 8 ((s.keys.stackOf.get m).length - 1) :: top.labelDigest)

theorem exec_derivePop (m : Master) (tag : Byte) (payload : Bytes) (s : State) :
    exec (.derivePop m tag payload) s =
      reply (fun s => s.request m .derivePop tag payload fun s r => s.derivePop m r) s := rfl

section
variable {s : State} {m : Master} {r : Req}

theorem derivePop_empty (hst : s.keys.stackOf.get m = []) : s.derivePop m r = s.refuse r .state := by
  simp only [State.derivePop, hst, List.getLast?_nil]

theorem derivePop_top {below : List StackEntry} {top : StackEntry} (hst : s.keys.stackOf.get m = below ++ [top]) :
    s.derivePop m r = (s.modKeys fun k => { k with stackOf := k.stackOf.set m below }).answer r .ok
      (BitVec.ofNat 8 below.length :: top.labelDigest) := by
  simp only [State.derivePop, hst, List.getLast?_concat, List.dropLast_concat, List.length_append, List.length_singleton,
    Nat.add_sub_cancel]

/-- DERIVE-PUSH under the top of an empty stack (R146). -/
theorem derivePush_topless {g : Byte} {label : Bytes} (hst : s.keys.stackOf.get m = []) (h1 : 1 ≤ label.length)
    (h64 : label.length ≤ 64) : s.derivePush m r 0 g label = s.refuse r .state := by
  have hdepth : s.depth m = 0 := by rw [State.depth, hst]; rfl
  have hform : ¬ (48 < (0 : Byte).toNat ∨ label.length < 1 ∨ 64 < label.length) := by
    rintro (h | h | h)
    · exact absurd h (by decide)
    · omega
    · omega
  simp only [State.derivePush, if_neg hform, hdepth, if_true]

end

/-- Settles O36: the stack is empty, or has a top entry to remove. -/
theorem derivePopRemovesTheTop : Obligations.DerivePopRemovesTheTop := by
  intro m tag s
  refine ⟨fun payload htakes hst => ?_, fun payload below top htakes hst => ?_, fun g label hi hst h1 h64 htakes => ?_⟩
  · exact exec_answered (exec_derivePop m tag payload s) htakes (derivePop_empty (s := s.accept m tag 0x29) hst)
  · exact (exec_derivePop m tag payload s).trans (reply_request htakes
      ((derivePop_top (s := s.accept m tag 0x29) hst).trans (answer_later .ok _)) rfl rfl rfl rfl rfl)
  · exact exec_refusal (exec_derivePush m tag (0 :: g :: label) s) htakes hi
      (derivePush_topless (s := s.accept m tag 0x28) hst h1 h64)

/-! ### DERIVE-STORE (R136, R148) -/

theorem exec_deriveStore {cls : KeyClass} {payload : Bytes} (hc : KeyClass.ofCode (byteAt 0 payload) = some cls) (m : Master)
    (tag : Byte) (s : State) :
    exec (.deriveStore m tag payload) s =
      act (fun s => s.request m .deriveStore tag payload fun s r => s.deriveStore m r cls payload) s := by
  change execDeriveStore m tag payload s = _
  simp only [execDeriveStore, hc]

/-- The VOLATILE key that a DERIVE-STORE payload asks for, on the handle it is to have (11.8). -/
structure NewKey.StoredBy (k : NewKey) (p : Bytes) : Prop where
  cls : k.cls = .volatile
  kind : k.kind = .secret
  users : k.users = byteAt 1 p
  usages : k.usages = byteAt 2 p
  binding : Binding.ofCode (byteAt 3 p) (byteAt 4 p) (slice 5 32 p) = some k.binding
  label : k.label = p.drop 37
  limit : k.limit = none

section
variable {s : State} {m : Master} {r : Req} {k : NewKey} {p : Bytes} {below : List StackEntry} {top : StackEntry}
  {root : KeyEntry}

theorem deriveStore_empty (hst : s.keys.stackOf.get m = []) (cls : KeyClass) :
    s.deriveStore m r cls p = s.refuse r .state := by
  simp only [State.deriveStore, hst, List.getLast?_nil]

/-- A table key found, usable and with its binding met passes its examination (R133). -/
theorem examine_passes {h : Nat} {g : Byte} {u : Usage} (hf : s.keyFound h g = some root) (ha : root.allows m u = true)
    (hb : s.bindingMet m root.binding = true) : s.examine h g m u = none := by
  simp [State.examine, hf, ha, hb]

/-- DERIVE-STORE's tests pass: the top is stored (R148). -/
theorem deriveStore_passes (hk : k.StoredBy p) (hst : s.keys.stackOf.get m = below ++ [top]) (hm : mayMake m k.users = true)
    (hform : keyForm .secret k.usages k.users k.binding k.label = true) (hl : s.labelInUse k.label = false)
    (hr : s.roomForKey .volatile = some k.handle) (hexam : s.examine top.rootHandle top.rootGen m .deriveStore = none) :
    s.deriveStore m r .volatile p = s.storeTop m r top k := by
  obtain ⟨handle, cls, kind, usages, users, binding, label, limit⟩ := k
  obtain ⟨rfl, rfl, rfl, rfl, hbinding, rfl, rfl⟩ := hk
  have hclass : s.storeClass .volatile = true := rfl
  simp only [State.deriveStore, hst, List.getLast?_concat, hclass, hm, hbinding, hform, withRoom_free hl hr, hexam]
  rfl

/-- The top's secret is PRESENT at once as a VOLATILE key when its root has no use limit (R136, R139, R148). -/
theorem storeTop_volatile (hst : s.keys.stackOf.get m = below ++ [top])
    (hf : s.keyFound top.rootHandle top.rootGen = some root) (hlimit : root.limit = none) (hc : k.cls = .volatile)
    (hfree : s.freeHandle = some k.handle) :
    s.storeTop m r top k = (s.withEntry (s.entryOf k top.secret [])).answer r .ok
      [BitVec.ofNat 8 k.handle, s.genOf k.handle, BitVec.ofNat 8 (below.length + 1)] := by
  have hdepth : s.depth m = below.length + 1 := by rw [State.depth, hst, List.length_append, List.length_singleton]
  have hheld : s.storeTop m r top k = (s.holdKey r k).completeKey r k top.secret [] (some (s.depth m)) := by
    simp only [State.storeTop, charge_unlimited hf hlimit, hfree, Option.getD_some]
  rw [hheld, completeKey_volatile hc hfree, hdepth]
  rfl

end

/-- Settles O37: the tests pass, and the key the payload asks for is completed with the top's secret. -/
theorem deriveStoreKeepsTheTopSecret : Obligations.DeriveStoreKeepsTheTopSecret := by
  intro m tag k payload s htakes hi hvolatile hcls hkind husers husages hbinding hlabel hlimit c
  have hk : k.StoredBy payload := ⟨hcls, hkind, husers, husages, hbinding, hlabel, hlimit⟩
  have hexec := exec_deriveStore (cls := .volatile) (payload := payload) (by rw [hvolatile]; rfl) m tag s
  refine ⟨fun hst => ?_, ?_⟩
  · exact exec_refusal hexec htakes hi (deriveStore_empty (s := s.accept m tag 0x2A) hst _)
  · intro below top root hst hm hform hl hr hf ha hb hroot e
    have he : e = s.entryOf k top.secret [] := by simp only [e, State.entryOf, hcls, hkind, hlimit]
    have hpasses := deriveStore_passes (s := s.accept m tag 0x2A) (r := s.nextReq m) hk hst hm hform hl hr
      (examine_passes (s := s.accept m tag 0x2A) hf ha hb)
    have hstored := storeTop_volatile (s := s.accept m tag 0x2A) (r := s.nextReq m) hst hf hroot hcls (freeHandle_of_room hr)
    rw [he]
    exact hexec.trans (act_request htakes hi (hpasses.trans (hstored.trans (answer_later .ok _))) hi rfl rfl rfl rfl)

end Sys2Proof.Machine
end

section
/-! EXTEND, LOCK-CELL, READ-CELLS and READ-LOG: O38 and O39. -/

namespace Sys2Proof.Machine

/-! ### EXTEND (R152) -/

theorem exec_extend (m : Master) (tag : Byte) (payload : Bytes) (s : State) :
    exec (.extend m tag payload) s =
      act (fun s => s.request m .extend tag payload fun s r =>
        s.extend m r (byteAt 0 payload).toNat (slice 1 32 payload)) s := rfl

/-- The cells EXTEND refuses, by their byte: cell 0 and what lies above 7. -/
theorem outsideCells_iff (cell : Byte) : cell.toNat < 1 ∨ 7 < cell.toNat ↔ cell = 0 ∨ 7 < cell.toNat := by bv_omega

section
variable {s : State} {m : Master} {r : Req} {cell : Nat} (digest : Bytes)

theorem extend_outside (h : cell < 1 ∨ 7 < cell) : s.extend m r cell digest = s.refuse r .badRequest := if_pos h

variable (hin : ¬ (cell < 1 ∨ 7 < cell))
include hin

theorem extend_locked (hlock : (s.measSet m).locks.getD cell false = true) :
    s.extend m r cell digest = s.refuse r .state :=
  (if_neg hin).trans (if_pos hlock)

variable (hopen : ¬ (s.measSet m).locks.getD cell false = true)
include hopen

theorem extend_logFull (hlog : 32 ≤ (s.measSet m).log.length) : s.extend m r cell digest = s.refuse r .full :=
  (if_neg hin).trans ((if_neg hopen).trans (if_pos hlog))

theorem extend_submits (hlog : ¬ 32 ≤ (s.measSet m).log.length) :
    s.extend m r cell digest = (s.setWork r (.extend cell digest)).submitJob
      (.mk' (.port m) (.digest none ((s.measSet m).cells.getD cell zeroValue ++ digest) true) .none (.request r)) :=
  (if_neg hin).trans ((if_neg hopen).trans (if_neg hlog))

end

/-- What EXTEND submits, of a request just accepted, is a job that names no key. -/
theorem extend_accept {s : State} {m : Master} {cell : Nat} (tag : Byte) (digest : Bytes) (hin : ¬ (cell < 1 ∨ 7 < cell))
    (hopen : ¬ (s.measSet m).locks.getD cell false = true) (hlog : ¬ 32 ≤ (s.measSet m).log.length) :
    (s.accept m tag 0x30).extend m (s.nextReq m) cell digest =
      (s.working m tag 0x30 (.extend cell digest)).given
        (.mk' (.port m) (.digest none ((s.measSet m).cells.getD cell zeroValue ++ digest) true) .none
          (.request (s.nextReq m))) := by
  rw [extend_submits (s := s.accept m tag 0x30) digest hin hopen hlog, setWork_accept]
  exact submitJob_keyless _ _ rfl rfl

/-- Settles O38: R152's tests in their order, then the DIGEST job, which names no key. -/
theorem extendSubmitsTheDigest : Obligations.ExtendSubmitsTheDigest := by
  intro m tag cell digest s htakes hi x
  have ⟨_, _, _, _, hfits⟩ := htakes
  have hexec := exec_extend m tag (cell :: digest) s
  rw [slice_one_of_fits hfits] at hexec
  by_cases hcell : cell = 0 ∨ 7 < cell.toNat
  · rw [if_pos hcell]
    exact exec_refusal hexec htakes hi
      (extend_outside (s := s.accept m tag 0x30) digest ((outsideCells_iff cell).mpr hcell))
  have hin : ¬ (cell.toNat < 1 ∨ 7 < cell.toNat) := fun h => hcell ((outsideCells_iff cell).mp h)
  rw [if_neg hcell]
  by_cases hlock : x.locks.getD cell.toNat false = true
  · rw [if_pos hlock]
    exact exec_refusal hexec htakes hi (extend_locked (s := s.accept m tag 0x30) digest hin hlock)
  rw [if_neg hlock]
  by_cases hlog : 32 ≤ x.log.length
  · rw [if_pos hlog]
    exact exec_refusal hexec htakes hi (extend_logFull (s := s.accept m tag 0x30) digest hin hlock hlog)
  rw [if_neg hlog]
  exact hexec.trans (act_request htakes hi (extend_accept tag digest hin hlock hlog) hi rfl rfl rfl rfl)

/-! ### LOCK-CELL (R155) -/

/-- LOCK-CELL taken (R155). -/
def State.lockCell (s : State) (m : Master) (r : Req) (cell : Nat) : State :=
  if 7 < cell then s.refuse r .badRequest
  else (s.modMeas m fun x => { x with locks := x.locks.set cell true }).answer r .ok []

theorem exec_lockCell (m : Master) (tag : Byte) (payload : Bytes) (s : State) :
    exec (.lockCell m tag payload) s =
      reply (fun s => s.request m .lockCell tag payload fun s r => s.lockCell m r (byteAt 0 payload).toNat) s := rfl

section
variable {s : State} {m : Master} {r : Req} {cell : Nat}

theorem lockCell_outside (h : 7 < cell) : s.lockCell m r cell = s.refuse r .badRequest := if_pos h

theorem lockCell_locks (h : ¬ 7 < cell) :
    s.lockCell m r cell = (s.modMeas m fun x => { x with locks := x.locks.set cell true }).answer r .ok [] := if_neg h

end

/-! ### READ-CELLS and READ-LOG (R156, R157) -/

theorem exec_readCells (m : Master) (tag : Byte) (payload : Bytes) (s : State) :
    exec (.readCells m tag payload) s =
      reply (fun s => s.request m .readCells tag payload fun s r =>
        s.withReading m r (byteAt 0 payload) fun target =>
          s.answer r .ok ((s.measSet target).cells.flatten ++
            [(s.measSet target).lockByte, BitVec.ofNat 8 (s.measSet target).log.length] ++
            (s.measSet target).releaseBytes)) s := rfl

theorem exec_readLog (m : Master) (tag : Byte) (payload : Bytes) (s : State) :
    exec (.readLog m tag payload) s =
      reply (fun s => s.request m .readLog tag payload fun s r =>
        s.withReading m r (byteAt 0 payload) fun target =>
          if (s.measSet target).log.length < (byteAt 1 payload).toNat then s.refuse r .badRequest
          else s.answer r .ok ((s.measSet target).logFrom (byteAt 1 payload).toNat)) s := rfl

/-- The layout of READ-LOG's answer, from the byte that names its start (11.8). -/
theorem logFrom_byte (x : MeasSet) (start : Byte) :
    x.logFrom start.toNat = [start, BitVec.ofNat 8 x.log.length] ++ le 4 x.releases.toNat ++
      [BitVec.ofNat 8 (min 30 (x.log.length - start.toNat))] ++
      ((x.log.drop start.toNat).take 30).flatMap fun e =>
        BitVec.ofNat 8 e.cell :: (e.digest ++ List.replicate 32 0).take 32 := by
  simp only [MeasSet.logFrom, MeasSet.releaseBytes, padTo, BitVec.ofNat_toNat, BitVec.setWidth_eq, List.length_take,
    List.length_drop]

section
variable {c : Instr} {s : State} {m target : Master} {n : RequestName} {payload : Bytes} {tag : Byte}
  {read : State → Req → Master → State}
  (hexec : exec c s = reply (fun s => s.request m n tag payload fun s r =>
    s.withReading m r (byteAt 0 payload) (read s r)) s)
  (htakes : s.takes m n payload)
include hexec htakes

/-- A reading that names no master (R192). -/
theorem exec_reading_unknown (h : Master.ofIdx (byteAt 0 payload).toNat = none) :
    exec c s = .next (s.told m tag n.code .badRequest [0]) :=
  exec_answered hexec htakes (withMaster_none h _)

/-- A reading of a master the requester may not name (R156). -/
theorem exec_reading_barred (h : Master.ofIdx (byteAt 0 payload).toNat = some target) (hm : ¬ (m = .app ∨ m = target)) :
    exec c s = .next (s.told m tag n.code .notPermitted [0]) :=
  exec_answered hexec htakes ((withMaster_some h _).trans (if_neg (mt mayName_iff.mp hm)))

/-- A reading of a master the requester may name (R156). -/
theorem exec_reading_named (h : Master.ofIdx (byteAt 0 payload).toNat = some target) (hm : m = .app ∨ m = target)
    {st : Status} {answer : Bytes}
    (hread : read (s.accept m tag n.code) (s.nextReq m) target =
      (s.accept m tag n.code).answer (s.nextReq m) st answer) :
    exec c s = .next (s.told m tag n.code st answer) :=
  exec_answered hexec htakes ((withMaster_some h _).trans ((if_pos (mayName_iff.mpr hm)).trans hread))

end

/-- Settles O39: LOCK-CELL by its cell, the two readings by the master they name. -/
theorem cellsAreLockedAndRead : Obligations.CellsAreLockedAndRead := by
  intro m tag payload s
  refine ⟨fun htakes => ?_, fun htakes => ?_, fun htakes => ?_⟩
  · have hexec := exec_lockCell m tag payload s
    by_cases hcell : 7 < (byteAt 0 payload).toNat
    · rw [if_pos hcell]
      exact exec_answered hexec htakes (lockCell_outside (s := s.accept m tag 0x31) hcell)
    · rw [if_neg hcell]
      exact hexec.trans (reply_request htakes
        ((lockCell_locks (s := s.accept m tag 0x31) hcell).trans (answer_later .ok _)) rfl rfl rfl rfl rfl)
  · have hexec := exec_readCells m tag payload s
    cases hidx : Master.ofIdx (byteAt 0 payload).toNat with
    | none => exact exec_reading_unknown hexec htakes hidx
    | some target =>
      dsimp only
      by_cases hm : m = .app ∨ m = target
      · rw [if_pos hm]
        exact exec_reading_named hexec htakes hidx hm rfl
      · rw [if_neg hm]
        exact exec_reading_barred hexec htakes hidx hm
  · have hexec := exec_readLog m tag payload s
    cases hidx : Master.ofIdx (byteAt 0 payload).toNat with
    | none => exact exec_reading_unknown hexec htakes hidx
    | some target =>
      dsimp only
      by_cases hbar : m ≠ .app ∧ m ≠ target
      · rw [if_pos hbar]
        exact exec_reading_barred hexec htakes hidx (not_or.mpr hbar)
      have hm : m = .app ∨ m = target := Decidable.or_iff_not_not_and_not.mpr hbar
      rw [if_neg hbar]
      by_cases hstart : (s.measSet target).log.length < (byteAt 1 payload).toNat
      · rw [if_pos hstart]
        exact exec_reading_named hexec htakes hidx hm (if_pos hstart)
      · rw [if_neg hstart, ← logFrom_byte]
        exact exec_reading_named hexec htakes hidx hm (if_neg hstart)

end Sys2Proof.Machine
end

section
/-! ATTEST: O40. -/

namespace Sys2Proof.Machine

/-! ### The job under the DEVICE ATTEST key (R57, R161) -/

section
variable {s : State} {e : KeyEntry}

/-- The take of the DEVICE ATTEST key: its material is copied, and no limit charged (R57). -/
theorem take_attest (hf : s.keyFound 1 (s.genOf 1) = some e) :
    s.take .attest = .taken s e.material (some (1, e.gen)) := by
  simp only [State.take, hf]

/-- A submitted job under the DEVICE ATTEST key. -/
theorem submitJob_attest {j : Job} (hj : j.key = .attest) (hn : j.started = false)
    (hf : s.keyFound 1 (s.genOf 1) = some e) :
    s.submitJob j = { s with engine := s.engine.given j e.material (some (1, e.gen)) } := by
  by_cases hq : s.engine.queue = []
  · exact submitJob_taken s j hq hn fun x => hj ▸ take_attest (s := { s with engine := x }) hf
  · exact submitJob_queued s j hq _ _

end

/-! ### ATTEST (R158, R159, R161) -/

theorem exec_attest (m : Master) (tag : Byte) (payload : Bytes) (s : State) :
    exec (.attest m tag payload) s =
      act (fun s => s.request m .attest tag payload fun s r =>
        s.attest m r (byteAt 0 payload) ⟨byteAt 1 payload, byteAt 2 payload, byteAt 3 payload⟩ (slice 4 32 payload)) s := rfl

/-- The nonce of an ATTEST payload (11.8). -/
theorem slice_nonce_of_fits {a b c d : Byte} {nonce : Bytes}
    (h : fits RequestName.attest.layout (a :: b :: c :: d :: nonce) = true) :
    slice 4 32 (a :: b :: c :: d :: nonce) = nonce := by
  have hmasks : fits [.fixed 3, .fixed 32] (b :: c :: d :: nonce) = true := (Bool.and_eq_true _ _ ▸ h).2
  have hnonce : fits [.fixed 32] nonce = true := (Bool.and_eq_true _ _ ▸ hmasks).2
  exact slice_zero_of_fits hnonce

/-- The sets ATTEST refuses, by their byte: the empty one, and what names an unknown master (log entry 23). -/
theorem masterSetRefused_iff (masters : Byte) :
    masters = 0 ∨ masterSetValid masters = false ↔ masters = 0 ∨ 8 ≤ masters.toNat := by
  simp [masterSetValid]

/-- The attestation sequence rises by 1 (R159). -/
def State.attestCounted (s : State) : State := { s with meas := { s.meas with sequence := s.meas.sequence + 1 } }

section
variable {s : State} {m : Master} {r : Req} {masters : Byte} (masks : Tri Byte) (nonce : Bytes)

theorem attest_badSet (h : masters = 0 ∨ masterSetValid masters = false) :
    s.attest m r masters masks nonce = s.refuse r .badRequest := if_pos h

variable (hset : ¬ (masters = 0 ∨ masterSetValid masters = false))
include hset

theorem attest_barred (hm : s.mayAttest m masters = false) :
    s.attest m r masters masks nonce = s.refuse r .notPermitted :=
  (if_neg hset).trans (if_pos hm)

variable (hm : s.mayAttest m masters = true)
include hm

theorem attest_keyless (hf : s.keyFound 1 (s.genOf 1) = none) :
    s.attest m r masters masks nonce = s.refuse r .state := by
  rw [State.attest, if_neg hset, if_neg (by simp [hm]), if_pos (by simp [hf])]

variable {e : KeyEntry} (hf : s.keyFound 1 (s.genOf 1) = some e)
include hf

theorem attest_exhausted (hseq : 4294967295 ≤ s.meas.sequence) :
    s.attest m r masters masks nonce = s.refuse r .full := by
  rw [State.attest, if_neg hset, if_neg (by simp [hm]), if_neg (by simp [hf]), if_pos hseq]

/-- The sequence rises first, so that the statement holds the new one. -/
theorem attest_submits (hseq : s.meas.sequence < 4294967295) :
    s.attest m r masters masks nonce =
      (s.attestCounted.setWork r (.attest (s.attestCounted.statement masters masks nonce))).submitJob
        (.mk' (.port m) (.sign (.text (s.attestCounted.statement masters masks nonce))) .attest (.request r)) := by
  rw [State.attest, if_neg hset, if_neg (by simp [hm]), if_neg (by simp [hf]), if_neg (Nat.not_le.mpr hseq)]
  rfl

end

/-- Accepting a request leaves the sequence to rise as before. -/
theorem attestCounted_accept (s : State) (m : Master) (tag code : Byte) :
    (s.accept m tag code).attestCounted = s.attestCounted.accept m tag code := rfl

/-- The statement does not depend on the port of its request (R160). -/
theorem statement_accept (s : State) (m : Master) (tag code masters : Byte) (masks : Tri Byte) (nonce : Bytes) :
    (s.accept m tag code).statement masters masks nonce = s.statement masters masks nonce := rfl

/-- What ATTEST submits, of a request just accepted, is a job under the DEVICE ATTEST key. -/
theorem attest_accept {s : State} {m : Master} {masters : Byte} {e : KeyEntry} (tag : Byte) (masks : Tri Byte)
    (nonce : Bytes) (hset : ¬ (masters = 0 ∨ masterSetValid masters = false)) (hm : s.mayAttest m masters = true)
    (hf : s.keyFound 1 (s.genOf 1) = some e) (hseq : s.meas.sequence < 4294967295) :
    let statement := s.attestCounted.statement masters masks nonce
    (s.accept m tag 0x34).attest m (s.nextReq m) masters masks nonce =
      { s.attestCounted.working m tag 0x34 (.attest statement) with
        engine := s.engine.given (.mk' (.port m) (.sign (.text statement)) .attest (.request (s.nextReq m))) e.material
          (some (1, e.gen)) } := by
  intro statement
  rw [attest_submits (s := s.accept m tag 0x34) masks nonce hset hm hf hseq, attestCounted_accept, statement_accept,
    show s.nextReq m = s.attestCounted.nextReq m from rfl, setWork_accept]
  exact submitJob_attest (s := s.attestCounted.working m tag 0x34 _) rfl rfl hf

/-- Settles O40: R158's tests in their order, then the SIGN job of the statement. -/
theorem attestSignsTheStatement : Obligations.AttestSignsTheStatement := by
  intro m tag a b c d nonce s htakes hi cmd
  have ⟨_, _, _, _, hfits⟩ := htakes
  have hexec := exec_attest m tag (a :: b :: c :: d :: nonce) s
  rw [slice_nonce_of_fits hfits] at hexec
  refine ⟨fun hbad => ?_, fun h0 h8 => ?_⟩
  · exact exec_refusal hexec htakes hi
      (attest_badSet (s := s.accept m tag 0x34) _ nonce ((masterSetRefused_iff a).mpr hbad))
  have hset : ¬ (a = 0 ∨ masterSetValid a = false) := fun h =>
    ((masterSetRefused_iff a).mp h).elim h0 (Nat.not_le.mpr h8)
  refine ⟨fun hm => ?_, fun hm => ⟨fun hf => ?_, fun e hf => ⟨fun hseq => ?_, fun hseq => ?_⟩⟩⟩
  · exact exec_refusal hexec htakes hi (attest_barred (s := s.accept m tag 0x34) _ nonce hset hm)
  · exact exec_refusal hexec htakes hi (attest_keyless (s := s.accept m tag 0x34) _ nonce hset hm hf)
  · exact exec_refusal hexec htakes hi (attest_exhausted (s := s.accept m tag 0x34) _ nonce hset hm hf hseq)
  · exact hexec.trans (act_request htakes hi (attest_accept tag ⟨b, c, d⟩ nonce hset hm hf hseq) hi rfl rfl rfl rfl)

end Sys2Proof.Machine
end

section
/-! What the credential requests share: the fields of their payloads, the entry that a name finds, and a request that ends in
a submitted job or write. -/

namespace Sys2Proof.Machine

/-! ### Fields of a payload (R165, R192) -/

/-- A field that its length precedes is taken whole, with what follows it. -/
theorem takePrefixed_append {name : Bytes} (h : name.length < 256) (rest : Bytes) :
    takePrefixed (BitVec.ofNat 8 name.length :: (name ++ rest)) = (name, rest) := by
  have hlen : (BitVec.ofNat 8 name.length).toNat = name.length := by
    rw [BitVec.toNat_ofNat]
    omega
  simp only [takePrefixed, hlen, List.take_left, List.drop_left]

theorem secretForm_iff {b : Bytes} : secretForm b = true ↔ 1 ≤ b.length ∧ b.length ≤ 64 := by
  simp [secretForm]

theorem secretForm_false_iff {b : Bytes} : secretForm b = false ↔ b.length < 1 ∨ 64 < b.length := by
  rw [← Bool.not_eq_true, secretForm_iff]
  omega

/-! ### The entry a name finds (R162) -/

theorem credNamed_name {s : State} {name : Bytes} {e : CredEntry} (h : s.credNamed name = some e) : e.name = name :=
  of_decide_eq_true (List.find?_some h :)

/-! ### Requests that submit (R24, R59) -/

section
variable {c : Instr} {s t : State} {m : Master} {n : RequestName} {payload : Bytes} {tag : Byte}
  {own : State → Req → State}
  (hexec : exec c s = act (fun s => s.request m n tag payload own) s) (htakes : s.takes m n payload) (hi : s.inbox = [])
  (ht : ∃ ports rng creds, t = { s with ports := ports, rng := rng, creds := creds })
include hexec htakes hi ht

/-- A request whose owner, having touched its port, the random source and the credentials alone, submits a job that names
no key. -/
theorem exec_given {j : Job} (ho : own (s.accept m tag n.code) (s.nextReq m) = t.submitJob j) (hkey : j.key = .none)
    (hnew : j.started = false) : exec c s = .next (t.given j).updateStat := by
  obtain ⟨ports, rng, creds, rfl⟩ := ht
  exact hexec.trans (act_request htakes hi (ho.trans (submitJob_keyless _ j hkey hnew)) hi rfl rfl rfl rfl)

/-- The same of a request whose owner submits a write to a store that takes it. -/
theorem exec_written {w : Write} (ho : own (s.accept m tag n.code) (s.nextReq m) = t.submitWrite w) (hs : s.storeTakes)
    (hw : w.for_.plain = true) : exec c s = .next (t.writing w).updateStat := by
  obtain ⟨ports, rng, creds, rfl⟩ := ht
  exact hexec.trans (act_writing htakes hi (ho.trans (submitWrite_taken _ w hs hw)) hi rfl rfl rfl rfl)

end

/-- The request just accepted, after an index was held and 16 bytes of salt drawn (R169, R170). -/
theorem setWork_salted (s : State) (m : Master) (tag code : Byte) (i : Nat) (name : Bytes) (w : Work) :
    (((s.accept m tag code).drawn 16).holdCred (s.nextReq m) i name).setWork (s.nextReq m) w =
      { s.working m tag code w with
        rng := s.rng + 16
        creds := { s.creds with holds := s.creds.holds ++ [⟨s.nextReq m, i, name⟩] } } :=
  setWork_later w

end Sys2Proof.Machine
end

section
/-! CLAIM and CRED-VERIFY: O41. -/

namespace Sys2Proof.Machine

/-! ### CLAIM (R169) -/

/-- CLAIM with an empty claim secret. -/
theorem exec_claim (m : Master) (tag : Byte) (owner : Bytes) (s : State) :
    exec (.claim m tag (0 :: owner)) s =
      act (fun s => s.request m .claim tag (0 :: owner) fun s r => s.claim r [] owner) s := rfl

section
variable {s : State} {r : Req} {owner : Bytes} {i : Nat}

/-- With no "claim" credential CLAIM goes on to step 2 (log entry 31). -/
theorem claim_proceeds (hwipe : s.creds.wiping = false) (hform : secretForm owner = true) (hfree : s.freeCred = some i)
    (hnone : s.credNamed nameClaim = none) : s.claim r [] owner = s.claimStep2 r owner := by
  simp [State.claim, hwipe, hform, hfree, hnone]

/-- Step 2 of a live request digests the owner secret. -/
theorem claimStep2_digests (hfree : s.freeCred = some i) (hlive : s.live r = true) :
    s.claimStep2 r owner =
      (((s.drawn 16).holdCred r i nameOwner).setWork r (.claimDigest i (s.random 16))).submitJob
        (saltedJob r (s.random 16) owner) := by
  simp only [State.claimStep2, hfree, hlive, if_true]

end

/-! ### CRED-VERIFY (R165) -/

theorem exec_credVerify {name : Bytes} (hname : name.length < 256) (m : Master) (tag : Byte) (secret : Bytes) (s : State) :
    exec (.credVerify m tag (BitVec.ofNat 8 name.length :: (name ++ secret))) s =
      act (fun s => s.request m .credVerify tag (BitVec.ofNat 8 name.length :: (name ++ secret)) fun s r =>
        s.credVerify m r name secret) s := by
  change execCredVerify m tag _ s = _
  simp only [execCredVerify, takePrefixed_append hname]

section
variable {s : State} {r : Req} {m : Master} {name secret : Bytes} {e : CredEntry}

theorem credVerify_misformed (hform : secretForm secret = false) :
    s.credVerify m r name secret = s.refuse r .badRequest := if_pos hform

variable (hform : secretForm secret = true)
include hform

theorem credVerify_unnamed (hnone : s.credNamed name = none) : s.credVerify m r name secret = s.refuse r .notFound := by
  simp [State.credVerify, hform, hnone]

variable (hnamed : s.credNamed name = some e)
include hnamed

theorem credVerify_ofSecret {v : Bytes} (hv : e.value = .secret v) :
    s.credVerify m r name secret = s.refuse r .badRequest := by
  simp [State.credVerify, hform, hnamed, hv]

variable {salt digest : Bytes} (hv : e.value = .verifier salt digest)
include hv

theorem credVerify_notReader (hread : hasBit e.readers m.idx = false) :
    s.credVerify m r name secret = s.refuse r .notPermitted := by
  simp [State.credVerify, hform, hnamed, hv, hread]

theorem credVerify_reader (hread : hasBit e.readers m.idx = true) :
    s.credVerify m r name secret = s.verifyAgainst r e salt secret (.verify name e.serial) := by
  simp [State.credVerify, hform, hnamed, hv, hread, credNamed_name hnamed]

end

section
variable {s : State} {r : Req} {e : CredEntry} {salt secret : Bytes} {w : Work}

/-- A verifier in its lockout answers the milliseconds remaining. -/
theorem verifyAgainst_locked {d : Nat} (hl : e.lockout = some d) (hd : s.ms < d) :
    s.verifyAgainst r e salt secret w = s.answer r .lockedOut (0 :: le 4 (d - s.ms)) := by
  simp [State.verifyAgainst, State.lockedFor, hl, hd, State.refuseLocked]

/-- A verifier whose lockout, if any, has passed is compared. -/
theorem verifyAgainst_open (hl : ∀ d, e.lockout = some d → d ≤ s.ms) :
    s.verifyAgainst r e salt secret w = (s.setWork r w).submitJob (saltedJob r salt secret) := by
  have hopen : s.lockedFor e = none := by
    cases he : e.lockout with
    | none => simp only [State.lockedFor, he]
    | some d => simp only [State.lockedFor, he, if_neg (Nat.not_lt.mpr (hl d he))]
  simp only [State.verifyAgainst, hopen]

end

/-- Settles O41: CLAIM reaches its step 2, CRED-VERIFY its comparison, and each submits the DIGEST job of salt and secret. -/
theorem claimAndVerifyDigestTheSecret : Obligations.ClaimAndVerifyDigestTheSecret := by
  intro m tag s hi
  constructor
  · intro owner i htakes hwipe h1 h64 hnone hfree salt
    have hclaim := (claim_proceeds (s := s.accept .app tag 0x40) (r := s.nextReq .app) hwipe
      (secretForm_iff.mpr ⟨h1, h64⟩) hfree hnone).trans (claimStep2_digests hfree (live_accept ..))
    rw [setWork_salted] at hclaim
    exact exec_given (exec_claim .app tag owner s) htakes hi ⟨_, _, _, rfl⟩ hclaim rfl rfl
  · intro name secret payload c htakes hname
    have hexec := exec_credVerify hname m tag secret s
    refine ⟨fun hbad => ?_, fun h1 h64 => ?_⟩
    · exact exec_refusal hexec htakes hi (credVerify_misformed (secretForm_false_iff.mpr hbad))
    have hform := secretForm_iff.mpr ⟨h1, h64⟩
    refine ⟨fun hnone => ?_, fun e hnamed => ⟨fun v hv => ?_, fun salt digest hv => ⟨fun hread => ?_, fun hread => ?_⟩⟩⟩
    · exact exec_refusal hexec htakes hi (credVerify_unnamed (s := s.accept m tag 0x41) hform hnone)
    · exact exec_refusal hexec htakes hi (credVerify_ofSecret (s := s.accept m tag 0x41) hform hnamed hv)
    · exact exec_refusal hexec htakes hi (credVerify_notReader (s := s.accept m tag 0x41) hform hnamed hv hread)
    have hreader := credVerify_reader (s := s.accept m tag 0x41) (r := s.nextReq m) hform hnamed hv hread
    refine ⟨fun d hl hd => ?_, fun hl => ?_⟩
    · exact hexec.trans (act_request htakes hi (hreader.trans
        ((verifyAgainst_locked (s := s.accept m tag 0x41) hl hd).trans (answer_accept ..))) hi rfl rfl rfl rfl)
    · have hopen := hreader.trans (verifyAgainst_open (s := s.accept m tag 0x41) hl)
      rw [setWork_accept] at hopen
      exact exec_given hexec htakes hi ⟨_, s.rng, s.creds, rfl⟩ hopen rfl rfl

end Sys2Proof.Machine
end

section
/-! CRED-PUT of a new name, and CRED-DELETE: O42. -/

namespace Sys2Proof.Machine

/-! ### CRED-PUT (R163, R170, R171, R190) -/

/-- The payload of a CRED-PUT (11.8); `secret` is kind SECRET. -/
def credPutPayload (cls : CredClass) (secret : Bool) (readers : Byte) (grantRequired : Bool) (name value : Bytes) : Bytes :=
  [cls.code, if secret then 1 else 0, readers, if grantRequired then 1 else 0] ++
    (BitVec.ofNat 8 name.length :: (name ++ value))

theorem ofCode_code (cls : CredClass) : CredClass.ofCode cls.code = some cls := by cases cls <;> rfl

/-- CRED-PUT taken, its payload read (R190). -/
def State.credPutRead (s : State) (m : Master) (r : Req) (cls : CredClass) (secret : Bool) (readers : Byte)
    (grantRequired : Bool) (name value : Bytes) : State :=
  if s.credBarred m cls then s.refuse r .notPermitted
  else s.credPut m r cls (if secret then 1 else 0) readers grantRequired name value

theorem exec_credPut {name : Bytes} (hname : name.length < 256) (m : Master) (tag : Byte) (cls : CredClass) (secret : Bool)
    (readers : Byte) (grantRequired : Bool) (value : Bytes) (s : State) :
    exec (.credPut m tag (credPutPayload cls secret readers grantRequired name value)) s =
      act (fun s => s.request m .credPut tag (credPutPayload cls secret readers grantRequired name value) fun s r =>
        s.credPutRead m r cls secret readers grantRequired name value) s := by
  have hcls : byteAt 0 (credPutPayload cls secret readers grantRequired name value) = cls.code := rfl
  have hkind : byteAt 1 (credPutPayload cls secret readers grantRequired name value) = if secret then 1 else 0 := rfl
  have hreaders : byteAt 2 (credPutPayload cls secret readers grantRequired name value) = readers := rfl
  have hgrant : byteAt 3 (credPutPayload cls secret readers grantRequired name value) = if grantRequired then 1 else 0 := rfl
  have hrest : takePrefixed ((credPutPayload cls secret readers grantRequired name value).drop 4) = (name, value) :=
    takePrefixed_append hname value
  change execCredPut m tag _ s = _
  simp only [execCredPut, hcls, hkind, hreaders, hgrant, hrest, ofCode_code, withFlag_bool, State.credPutRead]

/-- The entry a CRED-PUT of a new name makes. -/
def newCred (i : Nat) (name : Bytes) (cls : CredClass) (readers : Byte) (grantRequired : Bool) (v : CredValue) : CredEntry :=
  ⟨i, name, cls, readers, grantRequired, v, 1, 0, none⟩

section
variable {s : State} {m : Master} {r : Req} {cls : CredClass} {secret : Bool} {readers : Byte} {grantRequired : Bool}
  {name value : Bytes}

/-- A class APP's rescue image does not name, or the master may not put (R170 step 1, R190). -/
theorem credPutRead_forbidden (h : ¬ (s.credBarred m cls = false ∧ s.credAllowed m cls = true)) :
    s.credPutRead m r cls secret readers grantRequired name value = s.refuse r .notPermitted := by
  cases hbar : s.credBarred m cls with
  | true => simp only [State.credPutRead, hbar, if_true]
  | false =>
    have hnot : s.credAllowed m cls = false := by simpa [hbar] using h
    simp [State.credPutRead, hbar, State.credPut, hnot]

variable (hmay : s.credBarred m cls = false ∧ s.credAllowed m cls = true)
include hmay

theorem credPutRead_misformed (hform : credForm name cls secret readers grantRequired value = false) :
    s.credPutRead m r cls secret readers grantRequired name value = s.refuse r .badRequest := by
  cases secret <;> simp [State.credPutRead, State.credPut, hmay, hform]

/-- A CRED-PUT that passes its tests finds its place. -/
theorem credPutRead_placed (hform : credForm name cls secret readers grantRequired value = true) :
    s.credPutRead m r cls secret readers grantRequired name value =
      s.credPlace r (newCred 0 name cls readers grantRequired (.secret [])) secret value := by
  cases secret <;> simp [State.credPutRead, State.credPut, hmay, hform, newCred]

end

/-- A new name that no request holds is put on the lowest free index, held with the name (R170 step 3). -/
theorem credPlace_new {s : State} {e : CredEntry} {i : Nat} (hholds : ∀ h ∈ s.creds.holds, h.name ≠ e.name)
    (hnone : s.credNamed e.name = none) (hfree : s.freeCred = some i) (r : Req) (secret : Bool) (value : Bytes) :
    s.credPlace r e secret value = (s.holdCred r i e.name).putValue r { e with index := i } secret value true := by
  have hunheld : (s.creds.holds.any fun h => decide (h.name = e.name)) = false := by simpa using hholds
  simp only [State.credPlace, hunheld, hnone, hfree, Bool.false_eq_true, if_false]

/-- A new SECRET's record is submitted at once. -/
theorem putValue_secret (s : State) (r : Req) (e : CredEntry) (value : Bytes) :
    s.putValue r e true value true = (s.setWork r .other).submitWrite
      ⟨.cred, e.index, { e with value := .secret value }.payload, false, .credPut r { e with value := .secret value } true⟩ :=
  rfl

/-- A new verifier's salt is drawn, and salt and secret are digested first. -/
theorem putValue_verifier (s : State) (r : Req) (e : CredEntry) (value : Bytes) :
    s.putValue r e false value true =
      ((s.drawn 16).setWork r (.credDigest e (s.random 16) true)).submitJob (saltedJob r (s.random 16) value) := rfl

/-! ### CRED-DELETE (R171, R173, R190) -/

theorem exec_credDelete (m : Master) (tag : Byte) (name : Bytes) (s : State) :
    exec (.credDelete m tag name) s =
      act (fun s => s.request m .credDelete tag name fun s r => s.credDelete m r name) s := rfl

/-- A request that waits for no DIGEST of a CRED-PUT replaces no entry (R171). -/
theorem replacing_working (s : State) (m : Master) (tag code : Byte) (i : Nat) :
    (s.working m tag code .other).replacing i = (s.accept m tag code).replacing i := by
  unfold State.replacing
  dsimp only
  congr 2
  refine congrArg (fun replaces => Master.all.filterMap replaces) (funext fun k => ?_)
  by_cases hk : k = m
  · subst hk
    simp only [State.working, State.accept, State.port_modPort]
  · simp only [State.working, State.accept, State.reqOf, State.port_modPort_other _ _ _ _ hk]

/-- `s` after an entry was removed, and the CRED-PUTs that replace it marked (R171, R173). -/
def State.credRemoved (s : State) (i : Nat) : State :=
  s.modCreds fun c => { c with
    table := c.table.filter fun x => !decide (x.index = i)
    deleted := c.deleted ++ s.replacing i }

section
variable {s : State} {m : Master} {r : Req} {name : Bytes} {e : CredEntry}

theorem credDelete_unnamed (hnone : s.credNamed name = none) : s.credDelete m r name = s.refuse r .notFound := by
  simp only [State.credDelete, hnone]

variable (hnamed : s.credNamed name = some e)
include hnamed

theorem credDelete_barred (hbar : s.credBarred m e.cls = true) : s.credDelete m r name = s.refuse r .notPermitted := by
  simp only [State.credDelete, hnamed, hbar, if_true]

variable (hbar : s.credBarred m e.cls = false)
include hbar

theorem credDelete_owner (howner : name = nameOwner) : s.credDelete m r name = s.refuse r .state := by
  subst howner
  simp only [State.credDelete, hnamed, hbar, Bool.false_eq_true, if_false, if_true]

variable (hother : name ≠ nameOwner)
include hother

theorem credDelete_forbidden (hnot : s.credAllowed m e.cls = false) : s.credDelete m r name = s.refuse r .notPermitted := by
  simp only [State.credDelete, hnamed, hbar, hother, hnot, Bool.false_eq_true, if_false, if_true]

theorem credDelete_removes (hallow : s.credAllowed m e.cls = true) :
    s.credDelete m r name = ((s.credRemoved e.index).setWork r .other).submitWrite
      ⟨.cred, e.index, [], true, .credRemoval e.index (some r)⟩ := by
  simp only [State.credDelete, hnamed, hbar, hother, hallow, Bool.false_eq_true, reduceCtorEq, if_false]
  rfl

end

/-- Settles O42: each request is refused, or comes down to the write or the job that it submits. -/
theorem credPutAndDeleteWriteTheRecord : Obligations.CredPutAndDeleteWriteTheRecord := by
  intro m tag s hi
  constructor
  · intro cls secret readers grantRequired name value i payload c may htakes hname
    have hexec := exec_credPut hname m tag cls secret readers grantRequired value s
    refine ⟨fun hnot => ?_, fun hmay hform => ?_, fun hmay hform hnone hholds hfree => ?_⟩
    · exact exec_refusal hexec htakes hi (credPutRead_forbidden (s := s.accept m tag 0x42) hnot)
    · exact exec_refusal hexec htakes hi (credPutRead_misformed (s := s.accept m tag 0x42) hmay hform)
    have hput := (credPutRead_placed (s := s.accept m tag 0x42) (r := s.nextReq m) hmay hform).trans
      (credPlace_new (s := s.accept m tag 0x42) (e := newCred 0 name cls readers grantRequired (.secret [])) hholds hnone
        hfree _ _ _)
    refine ⟨fun hsecret hstore => ?_, fun hverifier => ?_⟩
    · subst hsecret
      rw [putValue_secret, setWork_later] at hput
      exact exec_written hexec htakes hi ⟨_, s.rng, _, rfl⟩ hput hstore rfl
    · subst hverifier
      rw [putValue_verifier] at hput
      have hsalted := setWork_salted s m tag 0x42 i name
        (.credDigest (newCred i name cls readers grantRequired (.secret [])) (s.random 16) true)
      exact exec_given hexec htakes hi ⟨_, _, _, rfl⟩ (hput.trans (congrArg (State.submitJob · _) hsalted)) rfl rfl
  · intro name htakes c
    have hexec := exec_credDelete m tag name s
    refine ⟨fun hnone => ?_, fun e hnamed => ⟨fun hbar => ?_, fun hbar howner => ?_, fun hbar hother hnot => ?_,
      fun hbar hother hallow hstore => ?_⟩⟩
    · exact exec_refusal hexec htakes hi (credDelete_unnamed (s := s.accept m tag 0x44) hnone)
    · exact exec_refusal hexec htakes hi (credDelete_barred (s := s.accept m tag 0x44) hnamed hbar)
    · exact exec_refusal hexec htakes hi (credDelete_owner (s := s.accept m tag 0x44) hnamed hbar howner)
    · exact exec_refusal hexec htakes hi (credDelete_forbidden (s := s.accept m tag 0x44) hnamed hbar hother hnot)
    · have hremoves := credDelete_removes (s := s.accept m tag 0x44) (r := s.nextReq m) hnamed hbar hother hallow
      rw [setWork_later] at hremoves
      rw [replacing_working]
      exact exec_written hexec htakes hi ⟨_, s.rng, _, rfl⟩ hremoves hstore rfl

end Sys2Proof.Machine
end

section
/-! The credential requests that are answered at once: O43 and O44. -/

namespace Sys2Proof.Machine

/-! ### CRED-GET (R172) -/

theorem exec_credGet (m : Master) (tag : Byte) (name : Bytes) (s : State) :
    exec (.credGet m tag name) s =
      reply (fun s => s.request m .credGet tag name fun s r => s.credGet m r name) s := rfl

/-- RUNNING on a CURRENT slot, by the slot served (R172). -/
theorem offCurrent_iff {s : State} {m : Master} : ¬ ((s.sup m).phase = .running ∧
    ((s.sup m).served = .slot .s0 ∧ (s.slot ⟨m, .s0⟩).state = .current ∨
      (s.sup m).served = .slot .s1 ∧ (s.slot ⟨m, .s1⟩).state = .current)) ↔ s.onCurrent m = false := by
  cases hserved : (s.sup m).served with
  | slot n => cases n <;> simp [State.onCurrent, hserved]
  | rescue => simp [State.onCurrent, hserved]
  | none => simp [State.onCurrent, hserved]

/-- The grant that an entry may require of its reader (R172). -/
theorem ungranted_iff {s : State} {m : Master} {required : Bool} :
    required = true ∧ s.creds.grants.get m = none ↔ (!required || s.granted m) = false := by
  simp [State.granted]

section
variable {s : State} {m : Master} {r : Req} {name v : Bytes} {e : CredEntry}

theorem credGet_unnamed (hnone : s.credNamed name = none) : s.credGet m r name = s.refuse r .notFound := by
  simp only [State.credGet, hnone]

variable (hnamed : s.credNamed name = some e)
include hnamed

theorem credGet_ofVerifier {salt digest : Bytes} (hv : e.value = .verifier salt digest) :
    s.credGet m r name = s.refuse r .badRequest := by
  simp only [State.credGet, hnamed, hv]

variable (hv : e.value = .secret v)
include hv

theorem credGet_forbidden
    (h : hasBit e.readers m.idx = false ∨ s.onCurrent m = false ∨ (!e.grantRequired || s.granted m) = false) :
    s.credGet m r name = s.refuse r .notPermitted := by
  have hbar : (hasBit e.readers m.idx && s.onCurrent m && (!e.grantRequired || s.granted m)) = false := by
    rcases h with h | h | h <;> simp only [h, Bool.false_and, Bool.and_false]
  simp only [State.credGet, hnamed, hv, hbar, Bool.false_eq_true, if_false]

theorem credGet_returns (hread : hasBit e.readers m.idx = true) (hcurrent : s.onCurrent m = true)
    (hgrant : (!e.grantRequired || s.granted m) = true) :
    s.credGet m r name = s.answer r .ok (le 4 e.serial ++ v) := by
  simp only [State.credGet, hnamed, hv, hread, hcurrent, hgrant, Bool.and_self, if_true]

end

/-- Settles O43: the entry is found or not, is a verifier or a secret, then R172's tests in their order. -/
theorem credGetReturnsASecret : Obligations.CredGetReturnsASecret := by
  intro m tag name s htakes
  have hexec := exec_credGet m tag name s
  cases hnamed : s.creds.table.find? fun e => decide (e.name = name) with
  | none => exact exec_answered hexec htakes (credGet_unnamed (s := s.accept m tag 0x43) hnamed)
  | some e =>
    dsimp only
    cases hv : e.value with
    | verifier salt digest => exact exec_answered hexec htakes (credGet_ofVerifier (s := s.accept m tag 0x43) hnamed hv)
    | secret v =>
      dsimp only
      by_cases hread : hasBit e.readers m.idx = false
      · rw [if_pos hread]
        exact exec_answered hexec htakes (credGet_forbidden (s := s.accept m tag 0x43) hnamed hv (.inl hread))
      rw [if_neg hread]
      by_cases hcurrent : s.onCurrent m = false
      · rw [if_pos (offCurrent_iff.mpr hcurrent)]
        exact exec_answered hexec htakes
          (credGet_forbidden (s := s.accept m tag 0x43) hnamed hv (.inr (.inl hcurrent)))
      rw [if_neg (mt offCurrent_iff.mp hcurrent)]
      by_cases hgrant : (!e.grantRequired || s.granted m) = false
      · rw [if_pos (ungranted_iff.mpr hgrant)]
        exact exec_answered hexec htakes (credGet_forbidden (s := s.accept m tag 0x43) hnamed hv (.inr (.inr hgrant)))
      · rw [if_neg (mt ungranted_iff.mp hgrant)]
        exact exec_answered hexec htakes (credGet_returns (s := s.accept m tag 0x43) hnamed hv (Bool.not_eq_false _ ▸ hread)
          (Bool.not_eq_false _ ▸ hcurrent) (Bool.not_eq_false _ ▸ hgrant))

/-! ### CRED-LIST and GRANT-CLOSE (R174) -/

theorem exec_credList (m : Master) (tag : Byte) (payload : Bytes) (s : State) :
    exec (.credList m tag payload) s =
      reply (fun s => s.request m .credList tag payload fun s r =>
        s.answer r .ok (BitVec.ofNat 8 (s.credsShown m).length :: (s.credsShown m).flatMap (·.listed))) s := rfl

theorem exec_grantClose (m : Master) (tag : Byte) (payload : Bytes) (s : State) :
    exec (.grantClose m tag payload) s =
      reply (fun s => s.request m .grantClose tag payload fun s r => (s.closeGrant m).answer r .ok []) s := rfl

/-- The entries a master is shown do not depend on its port. -/
theorem credsShown_accept (s : State) (m : Master) (tag code : Byte) : (s.accept m tag code).credsShown m = s.credsShown m :=
  rfl

/-- Settles O44: both requests are answered by their owner, GRANT-CLOSE once the grant is closed. -/
theorem credListAndGrantCloseAnswerAtOnce : Obligations.CredListAndGrantCloseAnswerAtOnce := by
  intro m tag payload s
  constructor
  · intro htakes shown
    have hshown : shown = (s.accept m tag 0x45).credsShown m := (credsShown_accept s m tag 0x45).symm
    rw [hshown]
    exact exec_answered (exec_credList m tag payload s) htakes rfl
  · intro htakes
    have hclosed := answer_later (s := s) (m := m) (tag := tag) (code := 0x46) (t := (s.accept m tag 0x46).closeGrant m) .ok []
    exact (exec_grantClose m tag payload s).trans (reply_request htakes hclosed rfl rfl rfl rfl rfl)

end Sys2Proof.Machine
end

section
/-! The deadlines of lockouts and grants, the owner button, and STAT's blinking: O50. -/

namespace Sys2Proof.Machine

/-! ### Steps after time has passed (log entry 2) -/

theorem creds_untilMs (s : State) (d : Nat) : (s.untilMs d).creds = s.creds := by
  obtain ⟨now, c, hu⟩ := untilMs_clock s d
  rw [hu]

section
variable {f : State → State} {s : State} {d : Nat} {creds : CredMgr}

/-- A step that no other block hears of, and that changes the credentials and the ports alone. -/
theorem reply_timed {ports : Tri Port} (h : f s = { s.untilMs d with creds := creds, ports := ports }) :
    reply f s = .next { s.untilMs d with creds := creds, ports := ports } := by
  obtain ⟨now, c, hu⟩ := untilMs_clock s d
  rw [hu] at h ⊢
  exact reply_next h rfl rfl rfl rfl rfl

/-- A step that changes the credentials alone. -/
theorem act_timed (hi : s.inbox = []) (h : f s = { s.untilMs d with creds := creds }) :
    act f s = .next ({ s.untilMs d with creds := creds } : State).updateStat := by
  obtain ⟨now, c, hu⟩ := untilMs_clock s d
  rw [hu] at h ⊢
  exact act_calm hi h hi rfl rfl rfl rfl

/-- A step that changes the credentials and submits a write to a store that takes it. -/
theorem act_timed_writing {w : Write} (hi : s.inbox = [])
    (h : f s = ({ s.untilMs d with creds := creds } : State).submitWrite w) (hs : s.storeTakes) (hw : w.for_.plain = true) :
    act f s = .next (({ s.untilMs d with creds := creds } : State).writing w).updateStat := by
  obtain ⟨now, c, hu⟩ := untilMs_clock s d
  rw [hu] at h ⊢
  obtain ⟨hinbox, hpending, hflash, hfuses, hstat⟩ := writing_frame { s with clock := now, ctl := c, creds := creds } w
  exact act_calm hi (h.trans (submitWrite_taken _ w hs hw)) (hinbox.trans hi) hpending hflash hfuses hstat

end

/-! ### Lockouts and grants (R167, R168) -/

theorem exec_lockoutExpiry (k : Nat) (s : State) : exec (.lockoutExpiry k) s = reply (fun s => s.lockoutPassed k) s := rfl

theorem exec_grantExpiry (m : Master) (s : State) : exec (.grantExpiry m) s = reply (fun s => s.grantPassed m) s := rfl

section
variable {s : State} {d : Nat}

/-- A lockout's deadline ends it, and leaves the other entries alone (R167). -/
theorem lockoutPassed_ends {k : Nat} (h : (s.credAt k).bind (·.lockout) = some d) :
    s.lockoutPassed k = { s.untilMs d with creds := { s.creds with
      table := s.creds.table.map fun e => if e.index = k then { e with lockout := none } else e } } := by
  simp only [State.lockoutPassed, h, State.modCred, State.modCreds, creds_untilMs]

/-- A grant's deadline closes it and raises OWNER (R168). -/
theorem grantPassed_closes {m : Master} (h : s.creds.grants.get m = some d) :
    s.grantPassed m =
      ({ s.untilMs d with creds := { s.creds with grants := s.creds.grants.set m none } } : State).raise m flagOwner := by
  have hgranted : (s.untilMs d).granted m = true := by rw [State.granted, creds_untilMs, h]; rfl
  simp only [State.grantPassed, h, State.loseGrant, hgranted, if_true, State.closeGrant, State.modCreds, creds_untilMs]

end

/-! ### The owner button (R175) -/

theorem exec_ownerButtonPress (s : State) : exec .ownerButtonPress s = reply State.buttonPressed s := rfl

theorem exec_ownerButtonRelease (s : State) : exec .ownerButtonRelease s = reply State.buttonReleased s := rfl

/-- What an established press makes of the Credential Manager at a time in milliseconds. -/
def CredMgr.press (c : CredMgr) (now : Nat) : CredMgr :=
  if c.button = .released then { c with pressed := true, button := .holding, buttonDeadline := some (now + 10000) }
  else { c with pressed := true }

/-- What an established release makes of the Credential Manager. -/
def CredMgr.release (c : CredMgr) : CredMgr :=
  if c.button = .holding ∨ c.button = .spent then { c with pressed := false, button := .released, buttonDeadline := none }
  else { c with pressed := false }

theorem buttonPressed_press (s : State) : s.buttonPressed = { s with creds := s.creds.press s.ms } := by
  by_cases h : s.creds.button = .released
  · rw [CredMgr.press, if_pos h]
    exact if_pos h
  · rw [CredMgr.press, if_neg h]
    exact if_neg h

theorem buttonReleased_release (s : State) : s.buttonReleased = { s with creds := s.creds.release } := by
  by_cases h : s.creds.button = .holding ∨ s.creds.button = .spent
  · rw [CredMgr.release, if_pos h]
    exact if_pos h
  · rw [CredMgr.release, if_neg h]
    exact if_neg h

/-! ### STAT (R114) -/

/-- A blinking pattern turns over at the end of its period. -/
theorem exec_statBlinkToggle {s : State} {p : Nat} (h : statPeriod s.stat.priority = some p) :
    exec .statBlinkToggle s =
      .next { s.until (s.stat.since + p) with stat := ⟨s.stat.priority, !s.stat.on, s.stat.since + p⟩ } := by
  change Host.Outcome.next s.blink = _
  simp only [State.blink, h]

/-- Settles O50: each deadline's effect after the time up to it, and the button's two events. -/
theorem ownerDeadlinesAndButtonAndStat : Obligations.OwnerDeadlinesAndButtonAndStat := by
  intro s
  refine ⟨fun k d h => ?_, fun m d h => ?_, ?_, ?_, fun h => ?_, fun h => ?_⟩
  · exact (exec_lockoutExpiry k s).trans (reply_timed (lockoutPassed_ends h))
  · exact (exec_grantExpiry m s).trans (reply_timed (grantPassed_closes h))
  · exact (exec_ownerButtonPress s).trans (reply_next (buttonPressed_press s) rfl rfl rfl rfl rfl)
  · exact (exec_ownerButtonRelease s).trans (reply_next (buttonReleased_release s) rfl rfl rfl rfl rfl)
  · have hperiod : statPeriod s.stat.priority = some 250000 := by rw [h]; rfl
    rw [exec_statBlinkToggle hperiod, h]
  · have hperiod : statPeriod s.stat.priority = some 1000000 := by rw [h]; rfl
    rw [exec_statBlinkToggle hperiod, h]

end Sys2Proof.Machine
end

section
/-! How a wipe starts: O51. -/

namespace Sys2Proof.Machine

/-! ### RELINQUISH (R176) -/

theorem exec_relinquish (m : Master) (tag : Byte) (payload : Bytes) (s : State) :
    exec (.relinquish m tag payload) s =
      act (fun s => s.request m .relinquish tag payload fun s r => s.relinquish m r) s := rfl

section
variable {s : State} {m : Master} {r : Req}

theorem relinquish_ungranted (h : s.creds.grants.get m = none) : s.relinquish m r = s.refuse r .notPermitted :=
  if_pos (by simp [State.granted, h])

theorem granted_of_open (h : s.creds.grants.get m ≠ none) : ¬ s.granted m = false := by
  simpa [State.granted] using h

variable (h : s.creds.grants.get m ≠ none)
include h

theorem relinquish_wiping (hwipe : s.creds.wipe ≠ .none) : s.relinquish m r = s.refuse r .conflict :=
  (if_neg (granted_of_open h)).trans (if_pos hwipe)

theorem relinquish_starts (hwipe : s.creds.wipe = .none) :
    s.relinquish m r = (s.setWork r .other).startWipe .request (some r) :=
  (if_neg (granted_of_open h)).trans (if_neg (not_not_intro hwipe))

end

/-! ### The owner button held for its time (R175) -/

theorem exec_ownerButtonHoldExpiry (s : State) : exec .ownerButtonHoldExpiry s = act State.buttonHeld s := rfl

/-- The Credential Manager with the owner button held for its time. -/
def CredMgr.spend (c : CredMgr) : CredMgr := { c with button := .spent, buttonDeadline := none }

section
variable {s : State} {d : Nat} (hd : s.creds.buttonDeadline = some d)
include hd

/-- In OWNED, with no wipe starting or in progress, the held button starts one. -/
theorem buttonHeld_starts (howned : s.creds.lifecycle = .owned) (hwipe : s.creds.wipe = .none)
    (hwiping : s.creds.wiping = false) :
    s.buttonHeld =
      ({ s.untilMs d with creds := { s.creds.spend with wipe := .starting, wipeCause := .button } } : State).submitWrite
        ⟨.journalWipe, 0, [1], true, .wipeOpen none⟩ := by
  simp only [State.buttonHeld, hd, State.modCreds, creds_untilMs]
  exact if_pos ⟨howned, hwipe, hwiping⟩

/-- Otherwise it only becomes SPENT. -/
theorem buttonHeld_spends (h : s.creds.lifecycle ≠ .owned ∨ s.creds.wipe ≠ .none ∨ s.creds.wiping = true) :
    s.buttonHeld = { s.untilMs d with creds := s.creds.spend } := by
  simp only [State.buttonHeld, hd, State.modCreds, creds_untilMs]
  refine if_neg ?_
  rintro ⟨howned, hwipe, hwiping⟩
  exact h.elim (· howned) (·.elim (· hwipe) fun hw => Bool.false_ne_true (hwiping.symm.trans hw))

end

/-- Settles O51: RELINQUISH by its grant and the wipe's course, the held button by the lifecycle, and the wipe that starts
submits its journal. -/
theorem wipesStartWithTheirJournal : Obligations.WipesStartWithTheirJournal := by
  intro s hi
  constructor
  · intro tag payload htakes c
    have hexec := exec_relinquish .app tag payload s
    refine ⟨fun hnone => ?_, fun hopen hwipe => ?_, fun hopen hwipe hstore => ?_⟩
    · exact exec_refusal hexec htakes hi (relinquish_ungranted (s := s.accept .app tag 0x47) hnone)
    · exact exec_refusal hexec htakes hi (relinquish_wiping (s := s.accept .app tag 0x47) hopen hwipe)
    · have hstarts := relinquish_starts (s := s.accept .app tag 0x47) (r := s.nextReq .app) hopen hwipe
      rw [setWork_accept] at hstarts
      exact exec_written hexec htakes hi ⟨_, s.rng, _, rfl⟩ hstarts hstore rfl
  · intro d hd u spent
    have hexec := exec_ownerButtonHoldExpiry s
    refine ⟨fun howned hwipe hwiping hstore => ?_, fun h => ?_⟩
    · exact hexec.trans (act_timed_writing hi (buttonHeld_starts hd howned hwipe hwiping) hstore rfl)
    · exact hexec.trans (act_timed hi (buttonHeld_spends hd h))

end Sys2Proof.Machine
end

section
/-! What the Port Interface does before a request reaches its owner: O7, O8, O9. -/

namespace Sys2Proof.Machine

/-! ### Steps that change the ports alone -/

section
variable {s : State} {f : State → State} {ports : Tri Port}

theorem reply_ports (h : f s = { s with ports := ports }) : reply f s = .next { s with ports := ports } :=
  reply_next h rfl rfl rfl rfl rfl

/-- No condition of R114's table is about the ports, so STAT is left alone. -/
theorem act_ports (hi : s.inbox = []) (hs : s.statRight) (h : f s = { s with ports := ports }) :
    act f s = .next { s with ports := ports } := by
  obtain ⟨hpriority, -⟩ := hs
  have hstat : State.updateStat { s with ports := ports } = { s with ports := ports } := updateStat_right hpriority.symm
  exact (act_calm hi h hi rfl rfl rfl rfl).trans (congrArg _ hstat)

theorem reply_same (h : f s = s) : reply f s = .next s := reply_ports (ports := s.ports) h

theorem act_same (hi : s.inbox = []) (hs : s.statRight) (h : f s = s) : act f s = .next s :=
  act_ports (ports := s.ports) hi hs h

end

/-! ### The rows of the request-code table (R181, R182) -/

/-- A part reset that is taken passes the port's tests; the empty payload is short enough. -/
theorem takes_of_partResetTaken {s : State} {m : Master} {payload : Bytes} (h : s.partResetTaken m payload = true) :
    s.takes m .partReset payload := by
  simp only [State.partResetTaken, Bool.and_eq_true, Bool.not_eq_true', decide_eq_false_iff_not] at h
  obtain ⟨⟨⟨⟨hphase, hreq⟩, havail⟩, hfits⟩, -⟩ := h
  have hempty : payload = [] := List.isEmpty_iff.mp hfits
  exact ⟨hphase, hreq, by simp [hempty], havail, hfits⟩

/-- The forms of the outcome of a request row: the port's judgement of its frame, in a step that other blocks hear of or one that
none hears of; a part reset; nothing for an ACTIVATE row whose mode byte is another row's (log entry 25). -/
inductive RequestForm (c : Instr) (s : State) (m : Master) (n : RequestName) (tag : Byte) (payload : Bytes) :
    Host.Outcome State Fault Refusal → Prop
  | acts (own : State → Req → State) :
      RequestForm c s m n tag payload (act (fun s => s.request m n tag payload own) s)
  | replies (own : State → Req → State) :
      RequestForm c s m n tag payload (reply (fun s => s.request m n tag payload own) s)
  | partResets (h : s.takes m n payload) (cause : ResetCause) : RequestForm c s m n tag payload (.next (s.partReset cause))
  | otherModes (h : c.wf = false) : RequestForm c s m n tag payload (act id s)

theorem execPartReset_request (m : Master) (tag : Byte) (payload : Bytes) (s : State) :
    RequestForm (.partReset m tag payload) s m .partReset tag payload (execPartReset m tag payload s) := by
  unfold execPartReset
  split
  · exact .partResets (takes_of_partResetTaken ‹_›) _
  · exact .replies _

/-- A mode byte of another row is no mode byte of this one. -/
theorem modeFits_of_otherMode {mode : ActivateMode} {payload : Bytes} (h : otherMode mode payload = true) :
    modeFits mode.code.toNat payload = false := by
  simp only [otherMode, Bool.and_eq_true, decide_eq_true_eq, Bool.not_eq_true', decide_eq_false_iff_not] at h
  obtain ⟨⟨hlen, hmode⟩, hother⟩ := h
  have hne : (byteAt 1 payload).toNat ≠ mode.code.toNat := fun e => hother (BitVec.eq_of_toNat_eq e)
  simp [modeFits, hlen, hne, hmode]

/-- The three rows of ACTIVATE. -/
theorem activate_request {c : Instr} {mode : ActivateMode} {payload : Bytes}
    (hwf : c.wf = (payloadFits payload && modeFits mode.code.toNat payload)) (s : State) (m : Master) (tag : Byte)
    (own : State → Req → State) :
    RequestForm c s m .activate tag payload
      (act (fun s => if otherMode mode payload then s else s.request m .activate tag payload own) s) := by
  by_cases h : otherMode mode payload = true
  · simp only [h, if_true]
    exact .otherModes (by rw [hwf, modeFits_of_otherMode h, Bool.and_false])
  · simp only [h]
    exact .acts own

/-- Every request row's outcome has one of the forms. -/
theorem exec_request_form {c : Instr} {m : Master} {n : RequestName} {tag : Byte} {payload : Bytes}
    (h : c.request = some (m, n, tag, payload)) (s : State) : RequestForm c s m n tag payload (exec c s) := by
  cases c with
  | partReset => cases h; exact execPartReset_request m tag payload s
  | activateNext => cases h; exact activate_request (mode := .next) rfl s m tag _
  | activateNow => cases h; exact activate_request (mode := .now) rfl s m tag _
  | activateInstall => cases h; exact activate_request (mode := .install) rfl s m tag _
  | identify | masterState | settingsRead | slotQuery | keyInfo | keyFind | keyPublic | derivePop | lockCell | readCells | readLog
  | credGet | credList | grantClose => cases h; exact .replies _
  | announce | restart | settingsWrite | stageBegin | stageData | stageEnd | stageAbort | trialCheck | slotErase | keyCreate
  | keyDestroy | keySign | keyAgree | keyMac | derivePush | deriveStore | extend | attest | claim | credVerify | credPut
  | credDelete | relinquish | fuseIdentity | fuseSigner | closeManufacture => cases h; exact .acts _
  | _ => cases h

/-- A request that does not reach its owner leaves what the port's tests leave, whoever the owner is. -/
theorem exec_untaken {c : Instr} {s : State} {m : Master} {n : RequestName} {tag : Byte} {payload : Bytes} {ports : Tri Port}
    (hc : c.request = some (m, n, tag, payload)) (hi : s.inbox = []) (hs : s.statRight) (htakes : ¬ s.takes m n payload)
    (hwf : c.wf = true ∨ ports = s.ports) (h : ∀ own, s.request m n tag payload own = { s with ports := ports }) :
    exec c s = .next { s with ports := ports } := by
  have form := exec_request_form hc s
  generalize exec c s = o at form
  cases form with
  | acts own => exact act_ports hi hs (h own)
  | replies own => exact reply_ports (h own)
  | partResets htaken cause => exact absurd htaken htakes
  | otherModes hother =>
    obtain hfits | rfl := hwf
    · exact absurd hfits (by simp [hother])
    · exact act_same hi hs rfl

/-! ### Transactions of a HELD master (R180) -/

theorem exec_unknownTransactionCode (m : Master) (code : Byte) (s : State) :
    exec (.unknownTransactionCode m code) s =
      reply (fun s => if code ∈ transactionCodes then s else s.served m fun s => s.raise m flagProto) s := rfl

theorem exec_requestFrameDiscarded (m : Master) (frame : Bytes) (s : State) :
    exec (.requestFrameDiscarded m (some frame)) s =
      reply (fun s => if (s.sup m).phase = .held then s else s.discard m frame) s := rfl

theorem exec_unknownRequest (m : Master) (tag code : Byte) (payload : Bytes) (s : State) :
    exec (.unknownRequest m tag code payload) s =
      reply (fun s =>
        if knownCode code then s else s.judge m tag code payload fun s r => s.refuse r .unknownRequest) s := rfl

theorem judge_held {s : State} {m : Master} (h : (s.sup m).phase = .held) (tag code : Byte) (payload : Bytes)
    (own : State → Req → State) : s.judge m tag code payload own = s := if_pos h

theorem reply_served_held {s : State} {m : Master} {f : State → State} (h : (s.sup m).phase = .held) :
    reply (fun s => s.served m f) s = .next s := reply_same (served_held h f)

theorem bootRead_held {s : State} {m : Master} (h : (s.sup m).phase = .held) : s.bootRead m = s := if_pos h

/-- A command that carries a request stands for a transaction on the request's port. -/
theorem transaction_of_request {c : Instr} {m k : Master} {n : RequestName} {tag : Byte} {payload : Bytes}
    (hc : c.request = some (m, n, tag, payload)) (h : c.transaction = some k) : k = m := by
  cases c with
  | bootRead | answerRead | statusRead | eventClear | eventMask | unknownTransactionCode | unknownRequest
  | requestFrameDiscarded => cases hc
  | _ =>
    simp only [Instr.transaction, hc, Option.map_some, Option.some.injEq] at h
    exact h.symm

/-- The other transactions of a HELD master. -/
theorem exec_transaction_held {c : Instr} {m : Master} {s : State} (hc : c.request = none) (h : c.transaction = some m)
    (hheld : (s.sup m).phase = .held) (hi : s.inbox = []) (hs : s.statRight) : exec c s = .next s := by
  cases c with
  | bootRead => cases h; exact (exec_bootRead m s).trans (act_same hi hs (bootRead_held hheld))
  | answerRead | statusRead | eventClear | eventMask => cases h; exact reply_served_held hheld
  | unknownTransactionCode k code =>
    cases h
    exact (exec_unknownTransactionCode m code s).trans (reply_same (ite_eq_left_iff.mpr fun _ => served_held hheld _))
  | unknownRequest k tag code payload =>
    cases h
    exact (exec_unknownRequest m tag code payload s).trans
      (reply_same (ite_eq_left_iff.mpr fun _ => judge_held hheld tag code payload _))
  | requestFrameDiscarded k frame =>
    cases h
    cases frame with
    | none => rfl
    | some frame => exact (exec_requestFrameDiscarded m frame s).trans (reply_same (if_pos hheld))
  | _ =>
    simp only [Instr.transaction, hc, Option.map_none] at h
    cases h

/-- Settles O7: a request is judged and ignored, and so is every other transaction. -/
theorem heldMastersTransactionsAreIgnored : Obligations.HeldMastersTransactionsAreIgnored := by
  intro c m s hc hheld hi hs
  cases hr : c.request with
  | none => exact exec_transaction_held hr hc hheld hi hs
  | some x =>
    obtain ⟨k, n, tag, payload⟩ := x
    obtain rfl := transaction_of_request hr hc
    have htakes : ¬ s.takes m n payload := fun ⟨hphase, _⟩ => hphase hheld
    exact exec_untaken hr hi hs htakes (.inr rfl) (request_held hheld n tag payload)

/-! ### Discarded frames and unknown transactions (R180, R181) -/

/-- An update of the silent port is one update of the port. -/
theorem modPort_silent (s : State) (m : Master) (g : Port → Port) :
    (s.silent m).modPort m g = s.modPort m fun p => g { p with out := [] } := by
  simp only [State.silent, State.modPort, Tri.get_set_same, Tri.set_set]

theorem raise_silent (s : State) (m : Master) (flag : Byte) :
    (s.silent m).raise m flag = s.modPort m fun p => { p with flags := p.flags ||| flag, out := [] } :=
  modPort_silent s m _

theorem discard_overrun {s : State} {m : Master} (h : (s.port m).req = .working) (frame : Bytes) :
    s.discard m frame = (s.silent m).raise m flagOverrun := if_pos h

theorem discard_frameErr {s : State} {m : Master} {frame : Bytes} (h : (s.port m).req ≠ .working)
    (hf : frameGood frame = false) :
    s.discard m frame = (s.silent m).raise m flagFrameErr := by
  simp only [State.discard, h, hf, if_false, Bool.false_eq_true]

/-- R181's step 2, test by test. -/
theorem frameGood_false {frame : Bytes}
    (h : 1024 < leNat (slice 2 2 frame) ∨ frame.length ≠ 6 + leNat (slice 2 2 frame) ∨
      frame.drop (4 + leNat (slice 2 2 frame)) ≠ crcBytes (frame.take (4 + leNat (slice 2 2 frame)))) :
    frameGood frame = false := by
  obtain hlong | hcount | hcrc := h
  · simp [frameGood, Nat.not_le.mpr hlong]
  · simp [frameGood, hcount]
  · simp [frameGood, hcrc]

/-- Settles O8: each discard raises its flag on the silent port. -/
theorem discardedFramesRaiseTheirFlag : Obligations.DiscardedFramesRaiseTheirFlag := by
  intro m s hphase flagged
  refine ⟨fun code hcode => ?_, rfl, fun frame hw => ?_, fun frame hw hbad => ?_, fun c n tag payload hc hwf hw hi hs => ?_⟩
  · have hserved := served_taken hphase fun s => s.raise m flagProto
    exact (exec_unknownTransactionCode m code s).trans
      (reply_ports ((if_neg hcode).trans (hserved.trans (raise_silent s m flagProto))))
  · exact (exec_requestFrameDiscarded m frame s).trans
      (reply_ports ((if_neg hphase).trans ((discard_overrun hw frame).trans (raise_silent s m flagOverrun))))
  · exact (exec_requestFrameDiscarded m frame s).trans (reply_ports
      ((if_neg hphase).trans ((discard_frameErr hw (frameGood_false hbad)).trans (raise_silent s m flagFrameErr))))
  · have htakes : ¬ s.takes m n payload := fun ⟨_, hreq, _⟩ => hreq hw
    exact exec_untaken hc hi hs htakes (.inl hwf) fun own =>
      (request_overrun hphase hw n tag payload own).trans (raise_silent s m flagOverrun)

/-! ### The tests of an accepted request (R182) -/

theorem knownCode_false {code : Byte} (h : ∀ n : RequestName, n.code ≠ code) : knownCode code = false := by
  simp [knownCode, h]

theorem judge_accepts {s : State} {m : Master} {payload : Bytes} (h : s.accepts m payload) (tag code : Byte)
    (own : State → Req → State) : s.judge m tag code payload own = own (s.accept m tag code) (s.nextReq m) := by
  obtain ⟨hphase, hreq, hlen⟩ := h
  have hname : (s.accept m tag code).reqOf m = s.nextReq m := by simp only [State.reqOf, State.nextReq, port_accept]
  simp only [State.judge, hphase, hreq, Nat.not_lt.mpr hlen, if_false, hname]

/-- Settles O9: the first test that fails answers the request. -/
theorem portTestsAcceptedRequestsInOrder : Obligations.PortTestsAcceptedRequestsInOrder := by
  intro s m tag payload hacc
  refine ⟨fun code hcode => ?_, fun c n hc hwf hi hs => ⟨fun havail => ?_, fun havail hfits => ?_⟩⟩
  · have hunknown : ¬ knownCode code = true := by simp [knownCode_false hcode]
    have hrefused := refuse_accept s m tag code .unknownRequest none
    exact (exec_unknownRequest m tag code payload s).trans
      (reply_ports ((if_neg hunknown).trans ((judge_accepts hacc tag code _).trans hrefused)))
  · have htakes : ¬ s.takes m n payload := fun ⟨_, _, _, h, _⟩ => by simp [havail] at h
    exact exec_untaken hc hi hs htakes (.inl hwf) (request_barred hacc havail tag)
  · have htakes : ¬ s.takes m n payload := fun ⟨_, _, _, _, h⟩ => by simp [hfits] at h
    exact exec_untaken hc hi hs htakes (.inl hwf) (request_misfit hacc havail hfits tag)

end Sys2Proof.Machine
end

section
/-! The transactions that read and write a port, and IDENTIFY: O10, O11, O12, O15. -/

namespace Sys2Proof.Machine

/-! ### Transactions served (R180) -/

/-- A transaction of a master that is not HELD, whose effect is one update of its port. -/
theorem reply_served {s : State} {m : Master} {f : State → State} {g : Port → Port} (h : (s.sup m).phase ≠ .held)
    (hf : f (s.silent m) = s.modPort m g) : reply (fun s => s.served m f) s = .next (s.modPort m g) :=
  reply_ports ((served_taken h f).trans hf)

/-- Updates of a port that agree on the port as it stands. -/
theorem modPort_congr {s : State} {m : Master} {f g : Port → Port} (h : f (s.port m) = g (s.port m)) :
    s.modPort m f = s.modPort m g := by
  have h' : f (s.ports.get m) = g (s.ports.get m) := h
  simp only [State.modPort, h']

/-! ### ANSWER-READ (R184) -/

theorem exec_answerRead (m : Master) (clocked : Nat) (s : State) :
    exec (.answerRead m clocked) s =
      reply (fun s => s.served m fun s => s.modPort m fun p => { p with out := clockedOut p.answerFrame clocked }) s := rfl

/-- The frame that answers the read is the port's, whatever it drove before. -/
theorem exec_answerRead_drives {s : State} {m : Master} (h : (s.sup m).phase ≠ .held) {frame : Bytes}
    (hframe : (s.port m).answerFrame = frame) (clocked : Nat) :
    exec (.answerRead m clocked) s = .next (s.modPort m fun p => { p with out := clockedOut frame clocked }) := by
  refine (exec_answerRead m clocked s).trans (reply_served h ((modPort_silent s m _).trans (modPort_congr ?_)))
  rw [← hframe]
  rfl

theorem Port.answerFrame_answered {p : Port} {a : Answer} (h : p.req = .answered) (ha : p.answer = some a) :
    p.answerFrame = a.frame := by
  simp only [Port.answerFrame, h, ha]

theorem Port.answerFrame_unanswered {p : Port} {st : ReqState} (h : p.req = st) (hst : st ≠ .answered) :
    p.answerFrame = noneFrame st := by
  unfold Port.answerFrame
  split
  · exact absurd (h.symm.trans ‹_›) hst
  · exact congrArg noneFrame h

/-- Settles O10: the frame by the request state. -/
theorem answerReadReturnsTheAnswerFrame : Obligations.AnswerReadReturnsTheAnswerFrame := by
  intro m clocked s hphase sent
  refine ⟨fun a hreq ha => ?_, fun hreq => ?_, fun hreq => ?_⟩
  · exact exec_answerRead_drives hphase (Port.answerFrame_answered hreq ha) clocked
  · exact exec_answerRead_drives hphase (Port.answerFrame_unanswered hreq nofun) clocked
  · exact exec_answerRead_drives hphase (Port.answerFrame_unanswered hreq nofun) clocked

/-! ### EVENT-CLEAR, EVENT-MASK and ALERT (R187) -/

theorem exec_eventClear {s : State} {m : Master} (h : (s.sup m).phase ≠ .held) (bits : Byte) :
    exec (.eventClear m bits) s = .next (s.modPort m fun p => { p with flags := p.flags &&& ~~~bits, out := [] }) :=
  reply_served h (modPort_silent s m _)

theorem exec_eventMask {s : State} {m : Master} (h : (s.sup m).phase ≠ .held) (bits : Byte) :
    exec (.eventMask m bits) s = .next (s.modPort m fun p => { p with mask := bits, out := [] }) :=
  reply_served h (modPort_silent s m _)

/-- Two sets of bits meet in some bit. -/
theorem and_ne_zero_iff {w : Nat} {a b : BitVec w} :
    a &&& b ≠ 0 ↔ ∃ i, i < w ∧ a.getLsbD i = true ∧ b.getLsbD i = true := by
  constructor
  · intro h
    refine Classical.byContradiction fun hnone => h (BitVec.eq_of_getLsbD_eq fun i hi => ?_)
    have hdisjoint : a.getLsbD i = true → b.getLsbD i = false := fun ha =>
      eq_false_of_ne_true fun hb => hnone ⟨i, hi, ha, hb⟩
    cases ha : a.getLsbD i with
    | false => simp [ha]
    | true => simp [ha, hdisjoint ha]
  · rintro ⟨i, -, ha, hb⟩ h
    have hbit : (a &&& b).getLsbD i = false := by simp [h]
    simp [ha, hb] at hbit

theorem alertAsserted_iff {s : State} {m : Master} :
    s.alertAsserted m = true ↔ ∃ i, i < 8 ∧ (s.port m).flags.getLsbD i = true ∧ (s.port m).mask.getLsbD i = true :=
  decide_eq_true_iff.trans and_ne_zero_iff

/-- A cleared flag is one whose bit is 1; no flag stands past the eighth bit. -/
theorem getLsbD_and_not {w : Nat} (a b : BitVec w) (i : Nat) :
    (a &&& ~~~b).getLsbD i = (a.getLsbD i && !b.getLsbD i) := by
  by_cases hi : i < w
  · simp [hi]
  · simp [BitVec.getLsbD_of_ge a i (Nat.not_lt.mp hi)]

/-- Settles O12: ALERT by the bits of flags and mask, and each of the two transactions as one update of its port. -/
theorem eventClearAndMaskDriveAlert : Obligations.EventClearAndMaskDriveAlert := by
  intro m bits s
  refine ⟨alertAsserted_iff, fun hphase =>
    ⟨_, _, exec_eventClear hphase bits, exec_eventMask hphase bits, fun i => ?_, ?_, ?_, rfl⟩⟩
  · rw [State.port_modPort]
    exact getLsbD_and_not _ _ i
  · rw [State.port_modPort]
  · refine modPort_congr ?_
    rw [State.port_modPort]

/-! ### IDENTIFY (R189) -/

theorem exec_identify (m : Master) (tag : Byte) (payload : Bytes) (s : State) :
    exec (.identify m tag payload) s =
      reply (fun s => s.request m .identify tag payload fun s r => s.answer r .ok s.identity) s := rfl

theorem available_identify (s : State) (m : Master) : s.available m .identify = true := by
  cases h : s.creds.lifecycle <;> simp [State.available, RequestName.avail, h]

/-- The view shows the serial of a PROGRAMMED identity row alone (R38, R39). -/
theorem Fuses.serial_view {f : Fuses} (h : f.view.identity ≠ .programmed) : f.view.serial = 0 :=
  if_neg fun hw => h ((identityState_programmed_iff f).mpr hw)

/-- Settles O15: the answer does not depend on the port. -/
theorem identifyAnswersFromTheState : Obligations.IdentifyAnswersFromTheState :=
  ⟨fun m s => available_identify s m, fun _ h => Fuses.serial_view h,
    fun m tag payload s htakes => exec_answered (exec_identify m tag payload s) htakes rfl⟩

/-! ### STATUS-READ (R185) -/

theorem exec_statusRead (m : Master) (s : State) :
    exec (.statusRead m) s = reply (fun s => s.served m fun s => s.modPort m fun p => { p with out := s.statusBytes m }) s := rfl

/-- What the port drove before is no part of the status. -/
theorem statusBytes_silent (s : State) (m : Master) : (s.silent m).statusBytes m = s.statusBytes m := by
  simp only [State.statusBytes, State.port_silent]
  rfl

/-- Settles O11: the four bytes, on the port as it stood. -/
theorem statusReadReturnsFourBytes : Obligations.StatusReadReturnsFourBytes := by
  intro m s hphase
  have hstatus := modPort_silent s m fun p => { p with out := (s.silent m).statusBytes m }
  rw [statusBytes_silent] at hstatus
  refine (exec_statusRead m s).trans (reply_served hphase ?_)
  rw [statusBytes_silent]
  exact hstatus

end Sys2Proof.Machine
end

section
/-! The queue of commands: O3, O1. -/

namespace Sys2Proof.Machine

/-! ### What each form of an outcome leaves of the queue -/

/-- A step that other blocks hear of answers a next state, with the queue it began with. -/
theorem act_answers (f : State → State) (s : State) : ∃ t, act f s = .next t ∧ t.pending = s.pending :=
  have ⟨hpending, _⟩ := act_frame (f := f) (s := s) rfl
  ⟨_, rfl, hpending⟩

/-- So does a step that no other block hears of. -/
theorem reply_answers (f : State → State) (s : State) : ∃ t, reply f s = .next t ∧ t.pending = s.pending :=
  have ⟨hpending, _⟩ := reply_frame (f := f) (s := s) rfl
  ⟨_, rfl, hpending⟩

@[simp] theorem State.pending_until (s : State) (d : Nat) : (s.until d).pending = s.pending := by
  unfold State.until
  split <;> rfl

@[simp] theorem State.pending_blink (s : State) : s.blink.pending = s.pending := by
  unfold State.blink
  split
  · rfl
  · exact State.pending_until s _

/-! The changes of the array and of the fuses that come before a step leave the queue too. -/

@[simp] theorem State.pending_programmedBy (s : State) (p : ActiveProg) (stuck : Bytes) :
    (s.programmedBy p stuck).pending = s.pending := rfl

@[simp] theorem State.pending_erasedBy (s : State) (x : Sector) (kept : List (Nat × Byte)) :
    (s.erasedBy x kept).pending = s.pending := rfl

@[simp] theorem State.pending_attempted (s : State) (i : FuseId) (blown : Bool) :
    (s.attempted i blown).pending = s.pending := by
  cases blown <;> rfl

/-! ### The obligations -/

/-- Settles O3: each outcome has one of the forms of `ExecForm`, and every form answers a next state with the queue kept. -/
theorem commandsKeepTheQueueAndAreNotRefused : Obligations.CommandsKeepTheQueueAndAreNotRefused := by
  intro c s
  have form := exec_form c s
  generalize exec c s = o at form
  cases form with
  | acts f => exact act_answers f s
  | replies f => exact reply_answers f s
  | blinks => exact ⟨_, rfl, s.pending_blink⟩
  | partResets hc cause => exact ⟨_, rfl, s.pending_partReset cause⟩
  | programs hc hp stuck f => exact act_answers f (s.programmedBy _ stuck)
  | erases hc hx kept f => exact act_answers f (s.erasedBy _ kept)
  | attempts hc hi blown f =>
    rw [← s.pending_attempted _ blown]
    exact act_answers f (s.attempted _ blown)

/-- A step on a queue that is not empty is its front command's meaning on the state with the queue's rest. -/
theorem step_of_pending {s : State} {c : Instr} {rest : List Instr} (h : s.pending = c :: rest) :
    step s = exec c { s with pending := rest } := by
  simp only [step, h]

/-- Settles O1. -/
theorem stepTakesTheFrontCommand : Obligations.StepTakesTheFrontCommand := fun _ _ _ => step_of_pending rfl

end Sys2Proof.Machine
end
